-- ==== Sys2Proof/Word.lean ====
section
/-! DEFINITION. The machine's word and byte (00_scope.md R7, R8: a host register is 32 bits wide, a
stream byte has 8 bits). Everything a test could show wrong stands under `Machine/` or in `Decode.lean`. -/

namespace Sys2Proof

/-- A 32-bit host register value or command word (R7, R21, R80). -/
abbrev Word := BitVec 32

/-- A stream byte (R8, R61). -/
abbrev Byte := BitVec 8

end Sys2Proof
end

