-- ==== Sys2Proof/Syntax.lean ====
section
/-! DEFINITION. The SCP's instructions: the words a host writes to CMD (30_encoding.md R80 to R85). -/

namespace Sys2Proof

/-- One command, decoded (R81, R85). A command has no operand fields (R90). The two illegal classes are
instructions of spec/opcode_table.json too: each carries the bits of its word, so that no two words share
one instruction. The five ILLEGAL_OP rows and the twenty-four ILLEGAL_RSV rows of the table are one
constructor each (log 11). -/
inductive Instr where
  /-- 0x00000000 (R84, R190). -/
  | nop
  /-- 0x00000001 (R100). -/
  | loadCal
  /-- 0x00000002 (R105). -/
  | clearCal
  /-- 0x00000003 (R120). -/
  | loadUt
  /-- 0x00000004 (R123). -/
  | loadUp
  /-- 0x00000005 (R143). -/
  | compT
  /-- 0x00000006 (R145). -/
  | compP
  /-- 0x00000007 (R147). -/
  | compensate
  /-- w[31:8] = 0 and an unassigned OP, 0x08 to 0xFF (R83). -/
  | illegalOp (op : BitVec 8)
  /-- w[31:8] = `rsv` ≠ 0, with any OP (R82). -/
  | illegalRsv (rsv : BitVec 24) (op : BitVec 8)
  deriving DecidableEq, Repr

end Sys2Proof
end

