-- ==== Sys2Proof/WellFormed.lean ====
section
/-! DEFINITION. Which instructions stand for a word: the side conditions of 30_encoding.md R82 and R83. -/

namespace Sys2Proof

/-- An unassigned OP is 0x08 or more (R83); a reserved field that makes a word illegal is not 0 (R82). -/
def Instr.WellFormed : Instr → Prop
  | .nop => True
  | .loadCal => True
  | .clearCal => True
  | .loadUt => True
  | .loadUp => True
  | .compT => True
  | .compP => True
  | .compensate => True
  | .illegalOp op => 8 ≤ op.toNat
  | .illegalRsv rsv _ => rsv ≠ 0

/-- The same check as a Bool, for evaluation. -/
def Instr.wellFormed : Instr → Bool
  | .nop => true
  | .loadCal => true
  | .clearCal => true
  | .loadUt => true
  | .loadUp => true
  | .compT => true
  | .compP => true
  | .compensate => true
  | .illegalOp op => decide (8 ≤ op.toNat)
  | .illegalRsv rsv _ => decide (rsv ≠ 0)

theorem Instr.wellFormed_iff (i : Instr) : i.wellFormed = true ↔ i.WellFormed := by
  cases i <;> simp [Instr.wellFormed, Instr.WellFormed]

end Sys2Proof
end

