-- ==== Sys2Proof/Decode.lean ====
section
/-! DEFINITION. Decoding a command word (30_encoding.md R80 to R85), the encoder, and the opcode map's
match/mask rows. A command is one 32-bit word of a register window that admits whole words only, so no
byte order enters (20_memory.md R57). -/

namespace Sys2Proof

/-- OP, w[7:0] (R80). -/
def opField (w : Word) : BitVec 8 := w.extractLsb' 0 8

/-- RSV, w[31:8] (R80). -/
def rsvField (w : Word) : BitVec 24 := w.extractLsb' 8 24

/-- The opcode map for RSV = 0 (R81); every OP it does not assign is illegal by name (R83). -/
def decodeOp (op : BitVec 8) : Instr :=
  if op = 0x00 then .nop
  else if op = 0x01 then .loadCal
  else if op = 0x02 then .clearCal
  else if op = 0x03 then .loadUt
  else if op = 0x04 then .loadUp
  else if op = 0x05 then .compT
  else if op = 0x06 then .compP
  else if op = 0x07 then .compensate
  else .illegalOp op

/-- Every 32-bit word decodes to exactly one instruction; the reserved bits are tested before the OP (R82, R85). -/
def decode (w : Word) : Instr :=
  if rsvField w ≠ 0 then .illegalRsv (rsvField w) (opField w) else decodeOp (opField w)

/-- The instruction's RSV field (R80 to R83). -/
def Instr.rsv : Instr → BitVec 24
  | .nop => 0
  | .loadCal => 0
  | .clearCal => 0
  | .loadUt => 0
  | .loadUp => 0
  | .compT => 0
  | .compP => 0
  | .compensate => 0
  | .illegalOp _ => 0
  | .illegalRsv rsv _ => rsv

/-- The instruction's OP field (R81). -/
def Instr.op : Instr → BitVec 8
  | .nop => 0x00
  | .loadCal => 0x01
  | .clearCal => 0x02
  | .loadUt => 0x03
  | .loadUp => 0x04
  | .compT => 0x05
  | .compP => 0x06
  | .compensate => 0x07
  | .illegalOp op => op
  | .illegalRsv _ op => op

/-- The command word of an instruction, {RSV, OP} (R80). -/
def encode (i : Instr) : Word := i.rsv ++ i.op

/-- The mnemonic of spec/opcode_table.json. -/
def Instr.mnemonic : Instr → String
  | .nop => "NOP"
  | .loadCal => "LOAD_CAL"
  | .clearCal => "CLEAR_CAL"
  | .loadUt => "LOAD_UT"
  | .loadUp => "LOAD_UP"
  | .compT => "COMP_T"
  | .compP => "COMP_P"
  | .compensate => "COMPENSATE"
  | .illegalOp _ => "ILLEGAL_OP"
  | .illegalRsv _ _ => "ILLEGAL_RSV"

/-- One match/mask row of the machine-readable opcode map (R85). -/
structure OpcodeRow where
  mnemonic : String
  pattern  : Word
  mask     : Word
  deriving DecidableEq, Repr

/-- A word matches a row when it agrees with the pattern under the mask. -/
def OpcodeRow.accepts (r : OpcodeRow) (w : Word) : Bool := w &&& r.mask == r.pattern

/-- The eight commands, each one full word (R81). -/
def commandRows : List OpcodeRow :=
  [⟨"NOP", 0x00000000, 0xFFFFFFFF⟩, ⟨"LOAD_CAL", 0x00000001, 0xFFFFFFFF⟩,
   ⟨"CLEAR_CAL", 0x00000002, 0xFFFFFFFF⟩, ⟨"LOAD_UT", 0x00000003, 0xFFFFFFFF⟩,
   ⟨"LOAD_UP", 0x00000004, 0xFFFFFFFF⟩, ⟨"COMP_T", 0x00000005, 0xFFFFFFFF⟩,
   ⟨"COMP_P", 0x00000006, 0xFFFFFFFF⟩, ⟨"COMPENSATE", 0x00000007, 0xFFFFFFFF⟩]

/-- The row of the words whose highest set bit is bit `k`. -/
def highestBitRow (name : String) (k : Nat) : OpcodeRow :=
  ⟨name, BitVec.ofNat 32 (2 ^ k), BitVec.ofNat 32 (2 ^ 32 - 2 ^ k)⟩

/-- Five rows for OP 0x08 to 0x0F, 0x10 to 0x1F, 0x20 to 0x3F, 0x40 to 0x7F and 0x80 to 0xFF (R85). -/
def illegalOpRows : List OpcodeRow := (List.range 5).map fun j => highestBitRow "ILLEGAL_OP" (3 + j)

/-- Twenty-four rows, one for each highest set bit 8 to 31 (R85). -/
def illegalRsvRows : List OpcodeRow := (List.range 24).map fun j => highestBitRow "ILLEGAL_RSV" (8 + j)

/-- The 37 rows of the opcode table, in its order (R85). -/
def opcodeRows : List OpcodeRow := commandRows ++ illegalOpRows ++ illegalRsvRows

/-- The instruction read from a table row's bits: a command is one 32-bit word (R80), bit 0 its least
significant bit; bits above `nbits` are 0. There is no longer command, so a longer row is refused. -/
def decodeTableWord (nbits w : Nat) : Option Instr :=
  if nbits ≤ 32 then some (decode (BitVec.ofNat 32 (w % 2 ^ nbits))) else none

end Sys2Proof
end

