-- ==== Sys2Proof/Config.lean ====
section
/-! DEFINITION. What a platform fixes and the spec leaves OPEN (00_scope.md R7). -/

namespace Sys2Proof

/-- SCP_BASE, the base address of the register window: "OPEN, a platform parameter" (R7, R50, R67).
No value of it can be proved; nothing but the platform's address decoding (`HostAccess.atAddress`)
uses it, because the window itself is reached by offset. -/
opaque Config.scpBase : Nat

/-- The window's size in bytes: offsets 0x00 to 0xFF (R7). -/
def Config.windowSize : Nat := 256

end Sys2Proof
end

