-- ==== Sys2Proof/Machine/State.lean ====
section
/-! DEFINITION. The state of the SCP (10_state.md R20) and of its ports, as plain data, and its value
after reset (R42). -/

namespace Sys2Proof.Machine

/-- The error codes of STATUS.ERR (60_exceptions.md R200). Codes 8 to 15 are "never recorded" (log 12). -/
inductive ErrCode where
  | noError | busError | uncalibrated | noRaw | noB5 | divZero | overflow | illegalCmd
  deriving DecidableEq, Repr

/-- What a load collects (R35). -/
inductive LoadKind where
  | cal | ut | up
  deriving DecidableEq, Repr

/-- What a compute command computes: T for COMP_T, P for COMP_P, TP for COMPENSATE (R35). -/
inductive CompKind where
  | t | p | tp
  deriving DecidableEq, Repr

/-- ENG, the engine state (R35). LOADING's N is a function of its kind (`LoadKind.frameBytes`). -/
inductive Eng where
  | idle
  | loading (kind : LoadKind)
  | computing (kind : CompKind)
  deriving DecidableEq, Repr

/-- The steps of the compensation sequence (42_compensation.md R149 to R168). -/
inductive StepCode where
  | t1 | t2 | t3 | t4
  | p1 | p2 | p3 | p4 | p5 | p6 | p7 | p8 | p9 | p10 | p11 | p12 | p13 | p14 | p15
  deriving DecidableEq, Repr

/-- How a compensation step can fail (R141). -/
inductive StepFail where
  | divZero (at_ : StepCode)
  | overflow (at_ : StepCode)
  deriving DecidableEq, Repr

/-- The stored fields of STATUS (R24). BUSY is no field: it is ENG ≠ IDLE (R25). Reserved bits read 0 and
are not stored. -/
structure Status where
  calValid  : Bool
  utValid   : Bool
  upValid   : Bool
  b5Valid   : Bool
  tValid    : Bool
  pValid    : Bool
  wrRej     : Bool
  irqDone   : Bool
  irqErr    : Bool
  strayFail : Bool
  err       : ErrCode
  errSub    : BitVec 4
  errInfo   : BitVec 8
  deriving DecidableEq, Repr

/-- The SCP: the tuple of R20. "Nothing else persists between steps." -/
structure Scp where
  /-- CTRL (R22). -/
  ctrl    : Word
  /-- STATUS (R24). -/
  status  : Status
  /-- UT[15:0] (R29). -/
  ut      : BitVec 16
  /-- UP[18:0] (R30). -/
  up      : BitVec 19
  /-- B5 (R31). -/
  b5      : Word
  /-- T10 (R31). -/
  t10     : Word
  /-- P_COMP (R31). -/
  pComp   : Word
  /-- COEF_RAW[0..10], in the order AC1 to AC6, B1, B2, MB, MC, MD (R32). -/
  coefRaw : Vector (BitVec 16) 11
  /-- ENG (R35). -/
  eng     : Eng
  /-- n, the count of bytes taken by the load in progress (R36). -/
  n       : Fin 22
  /-- SHADOW[0..21] (R36). -/
  shadow  : Vector Byte 22
  /-- LOSS, the latched oversampling setting (R37). -/
  loss    : BitVec 2
  deriving DecidableEq, Repr

/-- The registers of the window (R21). -/
inductive Reg where
  | ctrl | cmd | status | ut | up | b5 | t10 | pComp
  | coef (i : Fin 11)
  | rom (k : Fin 9)
  | reserved
  deriving DecidableEq, Repr

/-- What a host access does: read, or write a word. -/
inductive HostOp where
  | read
  | write (w : Word)
  deriving DecidableEq, Repr

/-- One access of the host to the window: an offset, and a size in bytes (20_memory.md R50, R51). -/
structure HostAccess where
  op   : HostOp
  off  : BitVec 8
  size : Nat
  deriving DecidableEq, Repr

/-- s_fail_cause: 0 a transport failure, 1 a short read (R62). -/
inductive FailCause where
  | transport | shortRead
  deriving DecidableEq, Repr

/-- What the transport presents, one at a time (R61, R62). -/
inductive StreamEvent where
  | byte (b : Byte)
  | fail (cause : FailCause)
  deriving DecidableEq, Repr

/-- The four agents (00_scope.md R14). -/
inductive Agent where
  | host | stream | engine | reset
  deriving DecidableEq, Repr

/-- The SCP and what its agents have still to do. `scp` is the spec's state; the other fields are the
model's own and hold the agents' choices as plain data (log 1). -/
structure State where
  /-- The SCP itself (R20). -/
  scp      : Scp
  /-- Which agent moves next, first first (R14). -/
  turns    : List Agent
  /-- The accesses the host has still to perform, in its order (R58). Its program's own control
  flow stays outside (DESIGN CHOICE, safe, log 19). -/
  host     : List HostAccess
  /-- What the transport holds, in the order it presents it (R61). -/
  stream   : List StreamEvent
  /-- The data the last host read returned (R52). -/
  readData : Option Word
  deriving DecidableEq, Repr

/-- What stops the machine as a fault: nothing. "No operation is fatal" (60_exceptions.md R210); every error
of the spec is recorded in STATUS by a next state (R205, R208). The type is closed and empty (log 7), so no
step can raise a fault: safe. -/
inductive Fault where
  deriving DecidableEq, Repr

/-- Why the model has no step. -/
inductive Refusal where
  /-- An instruction without a meaning, by its mnemonic. Raised by no arm of `exec`: safe. -/
  | notModelled (mnemonic : String)
  /-- A host access that is no aligned 32-bit word: "A model refuses such an access: it has no SCP step"
  (R51, R219). Raised by the host's turn only: safe, nothing is proved of the run that goes on (log 5). -/
  | hostAccess
  deriving DecidableEq, Repr

/-- STATUS after reset, 0x00000000 (R24, R42). -/
def Status.reset : Status where
  calValid := false
  utValid := false
  upValid := false
  b5Valid := false
  tValid := false
  pValid := false
  wrRej := false
  irqDone := false
  irqErr := false
  strayFail := false
  err := .noError
  errSub := 0
  errInfo := 0

/-- The SCP after reset (R42). SHADOW is "unspecified, unobservable" there; zero is a DESIGN CHOICE (log 3). -/
def Scp.reset : Scp where
  ctrl := 0
  status := Status.reset
  ut := 0
  up := 0
  b5 := 0
  t10 := 0
  pComp := 0
  coefRaw := Vector.replicate 11 0
  eng := .idle
  n := 0
  shadow := Vector.replicate 22 0
  loss := 0

/-- The machine right after reset: nothing is scheduled, no access and no byte is pending, and no read has
been answered (DESIGN CHOICE, logs 1 and 6). -/
def State.reset : State where
  scp := Scp.reset
  turns := []
  host := []
  stream := []
  readData := none

end Sys2Proof.Machine
end

