-- ==== Sys2Proof/Machine/Operands.lean ====
section
/-! DEFINITION. Number readings and arithmetic (00_scope.md R9 to R12), the operands of the commands
(30_encoding.md R86 to R90, 42_compensation.md R142), the coefficient ROM (10_state.md R33) and the
register window's map (R21). -/

namespace Sys2Proof.Machine

/-- zext_N: an N-bit pattern as an unsigned integer (R10). -/
def zext {n : Nat} (v : BitVec n) : Int := (v.toNat : Int)

/-- sext_N: an N-bit pattern as a two's-complement integer (R10). -/
def sext {n : Nat} (v : BitVec n) : Int := v.toInt

/-- bits_N: the N-bit two's-complement pattern of an integer, x mod 2^N (R10). -/
def bits (n : Nat) (x : Int) : BitVec n := BitVec.ofInt n x

/-- fdiv: division rounded toward minus infinity (R11). Used for b ≠ 0 only. -/
def fdiv (a b : Int) : Int := Int.fdiv a b

/-- asr(a, k) = fdiv(a, 2^k) (R11). -/
def asr (a : Int) (k : Nat) : Int := fdiv a (2 ^ k)

/-- fits64 (R12). -/
abbrev fits64 (x : Int) : Prop := -(2 ^ 63) ≤ x ∧ x ≤ 2 ^ 63 - 1

/-- fits32 (R12). -/
abbrev fits32 (x : Int) : Prop := -(2 ^ 31) ≤ x ∧ x ≤ 2 ^ 31 - 1

/-- chk(x, c): the 64-bit range check of a step (R141). -/
def chk (x : Int) (c : StepCode) : Except StepFail Int :=
  if fits64 x then .ok x else .error (.overflow c)

/-- The 32-bit range check of an output (R12, R153, R168). -/
def chk32 (x : Int) (c : StepCode) : Except StepFail Int :=
  if fits32 x then .ok x else .error (.overflow c)

/-- div(a, b, c): the divisor is tested before dividing (R141, R204). -/
def divChk (a b : Int) (c : StepCode) : Except StepFail Int :=
  if b = 0 then .error (.divZero c) else chk (fdiv a b) c

/-- ROM[k], DOC's nine literals (R33). A constant, no field of State (DESIGN CHOICE, safe, log 21). -/
def rom (k : Fin 9) : Int :=
  match k with
  | 0 => 8
  | 1 => 4000
  | 2 => 2
  | 3 => 2
  | 4 => 32768
  | 5 => 50000
  | 6 => 3038
  | 7 => -7357
  | 8 => 3791

/-- Coefficients 3, 4 and 5 (AC4, AC5, AC6) are unsigned, the other eight signed (R32). -/
def coefUnsigned (i : Fin 11) : Bool := i == 3 || i == 4 || i == 5

/-- The value of coefficient pattern `v` at index `i`, by its class (R32, R87). -/
def coefValue (i : Fin 11) (v : BitVec 16) : Int := if coefUnsigned i then zext v else sext v

/-- The value of coefficient `i` as the engine reads it (R142 (b)). -/
def Scp.coef (c : Scp) (i : Fin 11) : Int := coefValue i c.coefRaw[i]

/-- AC1 (R32). -/
def Scp.ac1 (c : Scp) : Int := c.coef 0
/-- AC2 (R32). -/
def Scp.ac2 (c : Scp) : Int := c.coef 1
/-- AC3 (R32). -/
def Scp.ac3 (c : Scp) : Int := c.coef 2
/-- AC4, unsigned (R32). -/
def Scp.ac4 (c : Scp) : Int := c.coef 3
/-- AC5, unsigned (R32). -/
def Scp.ac5 (c : Scp) : Int := c.coef 4
/-- AC6, unsigned (R32). -/
def Scp.ac6 (c : Scp) : Int := c.coef 5
/-- B1 (R32). -/
def Scp.b1 (c : Scp) : Int := c.coef 6
/-- B2 (R32). -/
def Scp.b2 (c : Scp) : Int := c.coef 7
/-- MB: stored and readable, read by no step (R32, R172). -/
def Scp.mb (c : Scp) : Int := c.coef 8
/-- MC (R32). -/
def Scp.mc (c : Scp) : Int := c.coef 9
/-- MD (R32). -/
def Scp.md (c : Scp) : Int := c.coef 10

/-- The 16-bit pattern 256·MSB + LSB of two stream bytes (R63, R87, R88). -/
def bytePair (msb lsb : Byte) : BitVec 16 := msb ++ lsb

/-- The eleven patterns of a calibration frame: coefficient i is the byte pair at offset 2i (R86, R87).
The order of the coefficients is the spec's own assumption (PRESUMED, unsafe, log 18). -/
def calFrame (sh : Vector Byte 22) : Vector (BitVec 16) 11 :=
  Vector.ofFn fun i => bytePair sh[2 * i.val] sh[2 * i.val + 1]

/-- The two bytes of a pattern, most significant first: pattern div 256 and pattern mod 256 (R104). -/
def patternBytes (v : BitVec 16) : Byte × Byte := (v.extractLsb' 8 8, v.extractLsb' 0 8)

/-- The pattern of a coefficient's value: bits_16(v) for a signed class, v for an unsigned one (R104). -/
def coefPattern (v : Int) : BitVec 16 := bits 16 v

/-- raw24 of a pressure frame (R89). -/
def raw24 (msb lsb xlsb : Byte) : Int := zext msb * 2 ^ 16 + zext lsb * 2 ^ 8 + zext xlsb

/-- UP of a pressure frame at oversampling setting `oss`: asr(raw24, 8 − oss) (R89, R124). -/
def upFrame (msb lsb xlsb : Byte) (oss : BitVec 2) : BitVec 19 :=
  bits 19 (asr (raw24 msb lsb xlsb) (8 - oss.toNat))

/-- N, the number of bytes of a load (R35). -/
def LoadKind.frameBytes : LoadKind → Nat
  | .cal => 22
  | .ut => 2
  | .up => 3

/-- The register at a window offset (R21). Offsets that are no multiple of 4 are refused before (R51). -/
def regAt (off : BitVec 8) : Reg :=
  let o := off.toNat
  if o = 0x00 then .ctrl
  else if o = 0x04 then .cmd
  else if o = 0x08 then .status
  else if o = 0x0C then .ut
  else if o = 0x10 then .up
  else if o = 0x14 then .b5
  else if o = 0x18 then .t10
  else if o = 0x1C then .pComp
  else if 0x20 ≤ o ∧ o ≤ 0x48 then .coef (Fin.ofNat 11 ((o - 0x20) / 4))
  else if 0x80 ≤ o ∧ o ≤ 0xA0 then .rom (Fin.ofNat 9 ((o - 0x80) / 4))
  else .reserved

/-- The offset of a register (R21); 0x4C, the first reserved one, stands for the reserved offsets. -/
def Reg.offset : Reg → BitVec 8
  | .ctrl => 0x00
  | .cmd => 0x04
  | .status => 0x08
  | .ut => 0x0C
  | .up => 0x10
  | .b5 => 0x14
  | .t10 => 0x18
  | .pComp => 0x1C
  | .coef i => BitVec.ofNat 8 (0x20 + 4 * i.val)
  | .rom k => BitVec.ofNat 8 (0x80 + 4 * k.val)
  | .reserved => 0x4C

/-- Only an access of 4 bytes at a multiple of 4 is defined (R50). -/
def HostAccess.aligned (a : HostAccess) : Bool := a.size == 4 && a.off.toNat % 4 == 0

/-- The access that a bus access at platform address `addr` makes, if it falls in the window: offset `off`
is reached at SCP_BASE + off (R50, R13). An address outside the window is no access of the SCP (R67). -/
def HostAccess.atAddress (op : HostOp) (addr size : Nat) : Option HostAccess :=
  if Config.scpBase ≤ addr ∧ addr < Config.scpBase + Config.windowSize then
    some ⟨op, BitVec.ofNat 8 (addr - Config.scpBase), size⟩
  else none

end Sys2Proof.Machine
end

