-- ==== Sys2Proof/Machine/Flags.lean ====
section
/-! DEFINITION. The fields and views of CTRL and STATUS (10_state.md R22, R24, R25, R27), the error record
(60_exceptions.md R200, R201) and the outputs irq and s_ready (R40, R41). -/

namespace Sys2Proof.Machine

/-- STATUS.BUSY is 1 exactly when ENG ≠ IDLE (R25). -/
def Scp.busy (c : Scp) : Bool := c.eng != .idle

/-- CTRL.OSS, bits 1:0 (R22). -/
def Scp.oss (c : Scp) : BitVec 2 := c.ctrl.extractLsb' 0 2

/-- CTRL.IE_DONE, bit 4 (R22). -/
def Scp.ieDone (c : Scp) : Bool := c.ctrl.getLsbD 4

/-- CTRL.IE_ERR, bit 5 (R22). -/
def Scp.ieErr (c : Scp) : Bool := c.ctrl.getLsbD 5

/-- CTRL.LEGACY_ZERO, bit 8 (R22). -/
def Scp.legacyZeroOn (c : Scp) : Bool := c.ctrl.getLsbD 8

/-- The defined fields of CTRL (R194). -/
def ctrlMask : Word := 0x00000133

/-- CTRL as the host reads it; reserved bits read 0 (R193, R52). -/
def Scp.ctrlWord (c : Scp) : Word :=
  0#23 ++ BitVec.ofBool c.legacyZeroOn ++ 0#2 ++ BitVec.ofBool c.ieErr ++ BitVec.ofBool c.ieDone ++ 0#2 ++ c.oss

/-- The number of an error code (R200). -/
def ErrCode.code : ErrCode → BitVec 4
  | .noError => 0
  | .busError => 1
  | .uncalibrated => 2
  | .noRaw => 3
  | .noB5 => 4
  | .divZero => 5
  | .overflow => 6
  | .illegalCmd => 7

/-- The code of a step: 0x10 + j for Tj, 0x20 + j for Pj (R201). -/
def StepCode.code : StepCode → BitVec 8
  | .t1 => 0x11 | .t2 => 0x12 | .t3 => 0x13 | .t4 => 0x14
  | .p1 => 0x21 | .p2 => 0x22 | .p3 => 0x23 | .p4 => 0x24 | .p5 => 0x25
  | .p6 => 0x26 | .p7 => 0x27 | .p8 => 0x28 | .p9 => 0x29 | .p10 => 0x2A
  | .p11 => 0x2B | .p12 => 0x2C | .p13 => 0x2D | .p14 => 0x2E | .p15 => 0x2F

/-- The error code of a failing step (R141). -/
def StepFail.errCode : StepFail → ErrCode
  | .divZero _ => .divZero
  | .overflow _ => .overflow

/-- ERR_INFO of a failing step: its step code (R201). -/
def StepFail.info : StepFail → BitVec 8
  | .divZero c => c.code
  | .overflow c => c.code

/-- ERR_SUB of a BUS_ERROR: the cause (R62, R201). -/
def FailCause.sub : FailCause → BitVec 4
  | .transport => 0
  | .shortRead => 1

/-- STATUS as the host reads it (R24, R193); reserved bits read 0 (R52). -/
def Scp.statusWord (c : Scp) : Word :=
  c.status.errInfo ++ c.status.errSub ++ c.status.err.code ++ 0#4
    ++ BitVec.ofBool c.status.strayFail ++ BitVec.ofBool c.status.irqErr
    ++ BitVec.ofBool c.status.irqDone ++ BitVec.ofBool c.status.wrRej ++ 0#1
    ++ BitVec.ofBool c.status.pValid ++ BitVec.ofBool c.status.tValid ++ BitVec.ofBool c.status.b5Valid
    ++ BitVec.ofBool c.status.upValid ++ BitVec.ofBool c.status.utValid ++ BitVec.ofBool c.status.calValid
    ++ BitVec.ofBool c.busy

/-- COEF_i as the host reads it: 0 while CAL_VALID = 0 (R32, R193). -/
def Scp.coefWord (c : Scp) (i : Fin 11) : Word :=
  if c.status.calValid then bits 32 (c.coef i) else 0

/-- The output irq, a level (R40, R209). Where it is wired is left out (DESIGN CHOICE, safe, log 9). -/
def Scp.irq (c : Scp) : Bool := (c.status.irqDone && c.ieDone) || (c.status.irqErr && c.ieErr)

/-- The output s_ready: 1 exactly when a load is waiting for bytes (R41). -/
def Scp.sReady (c : Scp) : Bool :=
  match c.eng with
  | .idle => false
  | .loading _ => true
  | .computing _ => false

/-- Writing 1 to a W1C bit clears it; all other STATUS bits ignore the write (R27). -/
def Status.w1c (st : Status) (w : Word) : Status :=
  { st with
    wrRej := st.wrRej && !w.getLsbD 8
    irqDone := st.irqDone && !w.getLsbD 9
    irqErr := st.irqErr && !w.getLsbD 10
    strayFail := st.strayFail && !w.getLsbD 11 }

end Sys2Proof.Machine
end

