-- ==== Sys2Proof/Machine/Ops.lean ====
section
/-! DEFINITION. The operations the rules share: the busy rejection (20_memory.md R54), acceptance
(43_control.md R192), the failure and success procedures, legacy zero and the acknowledge
(60_exceptions.md R205 to R207, R210), and the read of a register (43_control.md R193). -/

namespace Sys2Proof.Machine

/-- A step of the SCP inside the machine: the agents' pending actions do not change. -/
def State.onScp (s : State) (f : Scp → Scp) : State := { s with scp := f s.scp }

/-- A rejected write: WR_REJ <- 1 and nothing else (R54, R218). -/
def Scp.rejectWrite (c : Scp) : Scp := { c with status := { c.status with wrRej := true } }

/-- A host write to CTRL, CMD, UT or UP is rejected while BUSY = 1 (R54, R203). A command's
meaning includes it (DESIGN CHOICE, safe, log 20). -/
def Scp.unlessBusy (f : Scp → Scp) (c : Scp) : Scp := if c.busy then c.rejectWrite else f c

/-- Acceptance: ERR, ERR_SUB and ERR_INFO <- 0 (R192, R28). -/
def Scp.accept (c : Scp) : Scp :=
  { c with status := { c.status with err := .noError, errSub := 0, errInfo := 0 } }

/-- The failure procedure `raise Fail(code, sub, info)`: what the SCP has for taking an exception (R205,
R208). It records the error, sets IRQ_ERR, voids the cycle's results unless the word was illegal, and
returns to IDLE. -/
def Scp.fail (code : ErrCode) (sub : BitVec 4) (info : BitVec 8) (c : Scp) : Scp :=
  { c with
    status := { c.status with
      err := code
      errSub := sub
      errInfo := info
      irqErr := true
      tValid := if code = .illegalCmd then c.status.tValid else false
      pValid := if code = .illegalCmd then c.status.pValid else false }
    eng := .idle }

/-- The success procedure `complete()` (R206). -/
def Scp.complete (c : Scp) : Scp :=
  { c with status := { c.status with irqDone := true }, eng := .idle }

/-- The acknowledge, the SCP's only "return from a trap": W1C of STATUS bits 8 to 11, in every state (R195,
R210). -/
def Scp.ackStatus (w : Word) (c : Scp) : Scp := { c with status := c.status.w1c w }

/-- B5_VALID <- 0 (R143, R144, R147, R148). -/
def Scp.clearB5Valid (c : Scp) : Scp := { c with status := { c.status with b5Valid := false } }

/-- Legacy zero: zero results marked valid, recorded as UNCALIBRATED with ERR_SUB = 1 (R207). -/
def Scp.legacyZero (kind : CompKind) (c : Scp) : Scp :=
  let c' : Scp :=
    match kind with
    | .t => { c with t10 := 0, status := { c.status with tValid := true, pValid := false } }
    | .p => { c with pComp := 0, status := { c.status with pValid := true } }
    | .tp => { c with t10 := 0, pComp := 0, status := { c.status with tValid := true, pValid := true } }
  Scp.complete { c' with status := { c'.status with err := .uncalibrated, errSub := 1, errInfo := 0 } }

/-- A load starts: n <- 0, ENG <- LOADING(kind, N) (R36, R100, R120, R123). -/
def Scp.startLoad (kind : LoadKind) (c : Scp) : Scp := { c with n := 0, eng := .loading kind }

/-- A compute starts: ENG <- COMPUTING(kind) (R140). -/
def Scp.startCompute (kind : CompKind) (c : Scp) : Scp := { c with eng := .computing kind }

/-- LOSS <- CTRL.OSS (R37). -/
def Scp.latchOss (c : Scp) : Scp := { c with loss := c.oss }

/-- RegRead: the value of a register; reading changes nothing (R52, R55, R193). -/
def Scp.read (c : Scp) (r : Reg) : Word :=
  match r with
  | .ctrl => c.ctrlWord
  | .cmd => 0
  | .status => c.statusWord
  | .ut => bits 32 (zext c.ut)
  | .up => bits 32 (zext c.up)
  | .b5 => c.b5
  | .t10 => c.t10
  | .pComp => c.pComp
  | .coef i => c.coefWord i
  | .rom k => bits 32 (rom k)
  | .reserved => 0

end Sys2Proof.Machine
end

