-- ==== Sys2Proof/Machine/Calibration.lean ====
section
/-! DEFINITION. The calibration-coefficient loader: LOAD_CAL and CLEAR_CAL (40_calibration_loader.md R100 to
R106). -/

namespace Sys2Proof.Machine

/-- LOAD_CAL, issue: B5_VALID <- 0, n <- 0, ENG <- LOADING(CAL, 22) (R100). -/
def Scp.issueLoadCal (c : Scp) : Scp := c.clearB5Valid.startLoad .cal

/-- LOAD_CAL (R100). -/
def execLoadCal (s : State) : Host.Outcome State Fault Refusal :=
  .next (s.onScp (Scp.unlessBusy fun c => c.accept.issueLoadCal))

/-- LOAD_CAL, commit: all eleven coefficients and CAL_VALID in one step (R102). -/
def Scp.commitCal (c : Scp) : Scp :=
  Scp.complete { c with
    coefRaw := calFrame c.shadow
    status := { c.status with calValid := true } }

/-- LOAD_CAL, failure: the store is empty, COEF_RAW is not written (R103, C1). -/
def Scp.failCal (cause : FailCause) (c : Scp) : Scp :=
  Scp.fail .busError cause.sub (BitVec.ofNat 8 c.n.val)
    { c with status := { c.status with calValid := false } }

/-- CLEAR_CAL, in its own host step: CAL_VALID <- 0, B5_VALID <- 0, complete() (R105). -/
def Scp.issueClearCal (c : Scp) : Scp :=
  Scp.complete { c with status := { c.status with calValid := false, b5Valid := false } }

/-- CLEAR_CAL (R105). -/
def execClearCal (s : State) : Host.Outcome State Fault Refusal :=
  .next (s.onScp (Scp.unlessBusy fun c => c.accept.issueClearCal))

end Sys2Proof.Machine
end

