-- ==== Sys2Proof/Machine/Compensation.lean ====
section
/-! DEFINITION. The compensation engine: steps T1 to T4 and P1 to P15, COMP_T, COMP_P and COMPENSATE, their
issue and their engine step (42_compensation.md R140 to R172). Each step writes its checks out innermost
first, left to right (R141). The scratch registers are the steps' local values (10_state.md R38; DEDUCED,
safe, log 8). -/

namespace Sys2Proof.Machine

/-- T1: X1 = (UT − AC6) · AC5 / 2^15 (R150). The rule's bound on |X1| is off by one (DEDUCED, safe, log 22). -/
def stepT1 (ut ac6 ac5 : Int) : Except StepFail Int := do
  let d ← chk (ut - ac6) .t1
  let m ← chk (d * ac5) .t1
  chk (fdiv m (2 ^ 15)) .t1

/-- T2: X2 = MC · 2^11 / (X1 + MD); DIV_ZERO if the divisor is 0 (R151). -/
def stepT2 (x1 mc md : Int) : Except StepFail Int := do
  let d ← chk (x1 + md) .t2
  let m ← chk (mc * 2 ^ 11) .t2
  divChk m d .t2

/-- T3: b5 = X1 + X2 (R152). -/
def stepT3 (x1 x2 : Int) : Except StepFail Int := chk (x1 + x2) .t3

/-- T4: t10 = (b5 + 8) / 2^4, which must fit 32 bits (R153). -/
def stepT4 (b5 : Int) : Except StepFail Int := do
  let a ← chk (b5 + rom 0) .t4
  let t ← chk (fdiv a (2 ^ 4)) .t4
  chk32 t .t4

/-- P1: B6 = b5 − 4000 (R154). -/
def stepP1 (b5 : Int) : Except StepFail Int := chk (b5 - rom 1) .p1

/-- P2: SQ = B6 · B6 / 2^12 (R155). -/
def stepP2 (b6 : Int) : Except StepFail Int := do
  let m ← chk (b6 * b6) .p2
  chk (fdiv m (2 ^ 12)) .p2

/-- P3: X1 = B2 · SQ / 2^11 (R156). -/
def stepP3 (b2 sq : Int) : Except StepFail Int := do
  let m ← chk (b2 * sq) .p3
  chk (fdiv m (2 ^ 11)) .p3

/-- P4: X2 = AC2 · B6 / 2^11 (R157). -/
def stepP4 (ac2 b6 : Int) : Except StepFail Int := do
  let m ← chk (ac2 * b6) .p4
  chk (fdiv m (2 ^ 11)) .p4

/-- P5: X3 = X1 + X2 (R158). -/
def stepP5 (x1 x2 : Int) : Except StepFail Int := chk (x1 + x2) .p5

/-- P6: B3 = ((4·AC1 + X3) · 2^oss + 2) / 4 (R159). -/
def stepP6 (ac1 x3 : Int) (oss : Nat) : Except StepFail Int := do
  let a ← chk (4 * ac1) .p6
  let b ← chk (a + x3) .p6
  let e ← chk (b * 2 ^ oss) .p6
  let f ← chk (e + rom 2) .p6
  chk (fdiv f 4) .p6

/-- P7: X1 = AC3 · B6 / 2^13 (R160). -/
def stepP7 (ac3 b6 : Int) : Except StepFail Int := do
  let m ← chk (ac3 * b6) .p7
  chk (fdiv m (2 ^ 13)) .p7

/-- P8: X2 = B1 · SQ / 2^16 (R161). -/
def stepP8 (b1 sq : Int) : Except StepFail Int := do
  let m ← chk (b1 * sq) .p8
  chk (fdiv m (2 ^ 16)) .p8

/-- P9: X3 = (X1 + X2 + 2) / 4 (R162). -/
def stepP9 (x1 x2 : Int) : Except StepFail Int := do
  let a ← chk (x1 + x2) .p9
  let b ← chk (a + rom 3) .p9
  chk (fdiv b 4) .p9

/-- P10: B4 = AC4 · (X3 + 2^15) / 2^15 (R163). -/
def stepP10 (ac4 x3 : Int) : Except StepFail Int := do
  let a ← chk (x3 + rom 4) .p10
  let m ← chk (ac4 * a) .p10
  chk (fdiv m (2 ^ 15)) .p10

/-- P11: B7 = (UP − B3) · (50000 / 2^oss) (R164). -/
def stepP11 (up b3 : Int) (oss : Nat) : Except StepFail Int := do
  let a ← chk (up - b3) .p11
  chk (a * fdiv (rom 5) (2 ^ oss)) .p11

/-- P12: P = (B7 / B4) · 2, divided first, then doubled; DIV_ZERO if B4 = 0 (R165). -/
def stepP12 (b7 b4 : Int) : Except StepFail Int := do
  let q ← divChk b7 b4 .p12
  chk (q * 2) .p12

/-- P13: X1 = (P · P / 2^16) · 3038 / 2^16 (R166). -/
def stepP13 (p : Int) : Except StepFail Int := do
  let m ← chk (p * p) .p13
  let a ← chk (fdiv m (2 ^ 16)) .p13
  let b ← chk (a * rom 6) .p13
  chk (fdiv b (2 ^ 16)) .p13

/-- P14: X2 = −7357 · P / 2^16 (R167). -/
def stepP14 (p : Int) : Except StepFail Int := do
  let m ← chk (rom 7 * p) .p14
  chk (fdiv m (2 ^ 16)) .p14

/-- P15: PC = P + (X1 + X2 + 3791) / 2^4, which must fit 32 bits (R168). -/
def stepP15 (p x1 x2 : Int) : Except StepFail Int := do
  let a ← chk (x1 + x2) .p15
  let b ← chk (a + rom 8) .p15
  let q ← chk (fdiv b (2 ^ 4)) .p15
  let pc ← chk (p + q) .p15
  chk32 pc .p15

/-- Tseq: T1 to T4, giving (b5, t10) (R149). -/
def tseq (ut ac5 ac6 mc md : Int) : Except StepFail (Int × Int) := do
  let x1 ← stepT1 ut ac6 ac5
  let x2 ← stepT2 x1 mc md
  let b5 ← stepT3 x1 x2
  let t10 ← stepT4 b5
  pure (b5, t10)

/-- P1 to P12 of Pseq, giving P: the part that can fail by DIV_ZERO only (R149, R170). -/
def pseqHead (up b5 ac1 ac2 ac3 ac4 b1 b2 : Int) (oss : Nat) : Except StepFail Int := do
  let b6 ← stepP1 b5
  let sq ← stepP2 b6
  let x1 ← stepP3 b2 sq
  let x2 ← stepP4 ac2 b6
  let x3 ← stepP5 x1 x2
  let b3 ← stepP6 ac1 x3 oss
  let y1 ← stepP7 ac3 b6
  let y2 ← stepP8 b1 sq
  let y3 ← stepP9 y1 y2
  let b4 ← stepP10 ac4 y3
  let b7 ← stepP11 up b3 oss
  stepP12 b7 b4

/-- P13 to P15 of Pseq, from P to PC (R149). -/
def pseqTail (p : Int) : Except StepFail Int := do
  let z1 ← stepP13 p
  let z2 ← stepP14 p
  stepP15 p z1 z2

/-- Pseq: P1 to P15, giving PC (R149). -/
def pseq (up b5 ac1 ac2 ac3 ac4 b1 b2 : Int) (oss : Nat) : Except StepFail Int := do
  let p ← pseqHead up b5 ac1 ac2 ac3 ac4 b1 b2 oss
  pseqTail p

/-- Tseq on the SCP's operands (R142 (b), R144). -/
def Scp.runT (c : Scp) : Except StepFail (Int × Int) := tseq (zext c.ut) c.ac5 c.ac6 c.mc c.md

/-- Pseq on the SCP's operands and a given b5; oss = LOSS (R142 (b), R146, R148). -/
def Scp.runP (c : Scp) (b5 : Int) : Except StepFail Int :=
  pseq (zext c.up) b5 c.ac1 c.ac2 c.ac3 c.ac4 c.b1 c.b2 c.loss.toNat

/-- A step's failure ends the command through the failure procedure (R141, R204, R205). -/
def Scp.failStep (e : StepFail) (c : Scp) : Scp := c.fail e.errCode 0 e.info

/-- COMP_T's engine step (R144). -/
def Scp.engineT (c : Scp) : Scp :=
  match c.runT with
  | .error e => c.clearB5Valid.failStep e
  | .ok r =>
    Scp.complete { c with
      b5 := bits 32 r.1
      t10 := bits 32 r.2
      status := { c.status with b5Valid := true, tValid := true, pValid := false } }

/-- COMP_P's engine step; b5 comes from the register (R146). -/
def Scp.engineP (c : Scp) : Scp :=
  match c.runP (sext c.b5) with
  | .error e => c.failStep e
  | .ok pc =>
    Scp.complete { c with
      pComp := bits 32 pc
      status := { c.status with pValid := true } }

/-- Both parts of COMPENSATE, b5 passed internally (R148). -/
def Scp.runTP (c : Scp) : Except StepFail (Int × Int × Int) := do
  let r ← c.runT
  let pc ← c.runP r.1
  pure (r.1, r.2, pc)

/-- COMPENSATE's engine step: a failure of either part writes no result (R148). -/
def Scp.engineTP (c : Scp) : Scp :=
  match c.runTP with
  | .error e => c.clearB5Valid.failStep e
  | .ok r =>
    Scp.complete { c with
      b5 := bits 32 r.1
      t10 := bits 32 r.2.1
      pComp := bits 32 r.2.2
      status := { c.status with b5Valid := true, tValid := true, pValid := true } }

/-- The engine's one step, enabled while ENG = COMPUTING(kind); without it the engine has no step (R140). -/
def Scp.engineStep (c : Scp) : Scp :=
  match c.eng with
  | .idle => c
  | .loading _ => c
  | .computing .t => c.engineT
  | .computing .p => c.engineP
  | .computing .tp => c.engineTP

/-- COMP_T, issue: UNCALIBRATED or legacy zero, then NO_RAW for UT, then the compute (R143).
UNCALIBRATED clears B5_VALID, as "Flags written" says (DEDUCED, log 14). -/
def Scp.issueCompT (c : Scp) : Scp :=
  if c.status.calValid = false then
    if c.legacyZeroOn then c.legacyZero .t else c.clearB5Valid.fail .uncalibrated 0 0
  else if c.status.utValid = false then c.clearB5Valid.fail .noRaw 0 0
  else c.startCompute .t

/-- COMP_T (R143). -/
def execCompT (s : State) : Host.Outcome State Fault Refusal :=
  .next (s.onScp (Scp.unlessBusy fun c => c.accept.issueCompT))

/-- COMP_P, issue: UNCALIBRATED or legacy zero, then NO_RAW for UP, then NO_B5, then the compute (R145). -/
def Scp.issueCompP (c : Scp) : Scp :=
  if c.status.calValid = false then
    if c.legacyZeroOn then c.legacyZero .p else c.fail .uncalibrated 0 0
  else if c.status.upValid = false then c.fail .noRaw 1 0
  else if c.status.b5Valid = false then c.fail .noB5 0 0
  else c.latchOss.startCompute .p

/-- COMP_P (R145). -/
def execCompP (s : State) : Host.Outcome State Fault Refusal :=
  .next (s.onScp (Scp.unlessBusy fun c => c.accept.issueCompP))

/-- COMPENSATE, issue: UNCALIBRATED or legacy zero, then NO_RAW for UT, NO_RAW for UP, then the compute
(R147). UNCALIBRATED clears B5_VALID, as "Flags written" says (DEDUCED, log 14). -/
def Scp.issueCompensate (c : Scp) : Scp :=
  if c.status.calValid = false then
    if c.legacyZeroOn then c.legacyZero .tp else c.clearB5Valid.fail .uncalibrated 0 0
  else if c.status.utValid = false then c.clearB5Valid.fail .noRaw 0 0
  else if c.status.upValid = false then c.clearB5Valid.fail .noRaw 1 0
  else c.latchOss.startCompute .tp

/-- COMPENSATE (R147). -/
def execCompensate (s : State) : Host.Outcome State Fault Refusal :=
  .next (s.onScp (Scp.unlessBusy fun c => c.accept.issueCompensate))

end Sys2Proof.Machine
end

