-- ==== Sys2Proof/Machine/Control.lean ====
section
/-! DEFINITION. NOP and the illegal command (43_control.md R190, R191), and the host's writes of CTRL
(R194). The write of STATUS is `Scp.ackStatus` (R195). -/

namespace Sys2Proof.Machine

/-- NOP changes no state; while BUSY it is rejected like any CMD write (R190). -/
def execNop (s : State) : Host.Outcome State Fault Refusal :=
  .next (s.onScp (Scp.unlessBusy id))

/-- The illegal command: ILLEGAL_CMD with `sub` and the OP byte (R191). It is not accepted: the failure
record overwrites the last one. -/
def Scp.illegal (sub : BitVec 4) (op : BitVec 8) (c : Scp) : Scp := c.fail .illegalCmd sub op

/-- An unassigned OP: ERR_SUB = 0, ERR_INFO = OP (R83, R191). -/
def execIllegalOp (op : BitVec 8) (s : State) : Host.Outcome State Fault Refusal :=
  .next (s.onScp (Scp.unlessBusy (Scp.illegal 0 op)))

/-- Reserved bits not zero: ERR_SUB = 1, ERR_INFO = w[7:0], whatever the reserved bits are (R82, R191). -/
def execIllegalRsv (_rsv : BitVec 24) (op : BitVec 8) (s : State) : Host.Outcome State Fault Refusal :=
  .next (s.onScp (Scp.unlessBusy (Scp.illegal 1 op)))

/-- CTRL <- w AND 0x00000133 (R194). -/
def Scp.writeCtrl (w : Word) (c : Scp) : Scp := { c with ctrl := w &&& ctrlMask }

end Sys2Proof.Machine
end

