-- ==== Sys2Proof/Machine/RawReadings.lean ====
section
/-! DEFINITION. The raw readings: LOAD_UT, LOAD_UP and the host's writes of UT and UP (41_raw_readings.md R120
to R127). -/

namespace Sys2Proof.Machine

/-- LOAD_UT (R120). -/
def execLoadUt (s : State) : Host.Outcome State Fault Refusal :=
  .next (s.onScp (Scp.unlessBusy fun c => c.accept.startLoad .ut))

/-- LOAD_UT, commit: UT <- 256·SHADOW[0] + SHADOW[1] (R121). -/
def Scp.commitUt (c : Scp) : Scp :=
  Scp.complete { c with
    ut := bytePair c.shadow[0] c.shadow[1]
    status := { c.status with utValid := true } }

/-- LOAD_UT, failure: UT_VALID <- 0, UT is not written (R122). -/
def Scp.failUt (cause : FailCause) (c : Scp) : Scp :=
  Scp.fail .busError cause.sub (BitVec.ofNat 8 c.n.val)
    { c with status := { c.status with utValid := false } }

/-- LOAD_UP: LOSS <- CTRL.OSS, then the load (R123). -/
def execLoadUp (s : State) : Host.Outcome State Fault Refusal :=
  .next (s.onScp (Scp.unlessBusy fun c => c.accept.latchOss.startLoad .up))

/-- LOAD_UP, commit: UP <- asr(raw24, 8 − LOSS) (R124). -/
def Scp.commitUp (c : Scp) : Scp :=
  Scp.complete { c with
    up := upFrame c.shadow[0] c.shadow[1] c.shadow[2] c.loss
    status := { c.status with upValid := true } }

/-- LOAD_UP, failure: UP_VALID <- 0, UP is not written (R125). -/
def Scp.failUp (cause : FailCause) (c : Scp) : Scp :=
  Scp.fail .busError cause.sub (BitVec.ofNat 8 c.n.val)
    { c with status := { c.status with upValid := false } }

/-- A host write of UT: UT <- w[15:0], UT_VALID <- 1 (R126). -/
def Scp.writeUt (w : Word) (c : Scp) : Scp :=
  { c with ut := w.extractLsb' 0 16, status := { c.status with utValid := true } }

/-- A host write of UP: UP <- w[18:0], UP_VALID <- 1 (R127). -/
def Scp.writeUp (w : Word) (c : Scp) : Scp :=
  { c with up := w.extractLsb' 0 19, status := { c.status with upValid := true } }

end Sys2Proof.Machine
end

