-- ==== Sys2Proof/Machine/Dispatch.lean ====
section
/-! DEFINITION. The effect of writing a command word to CMD, one arm per instruction (43_control.md R192). -/

namespace Sys2Proof.Machine

def exec (i : Instr) (s : State) : Host.Outcome State Fault Refusal :=
  match i with
  | .nop => Sys2Proof.Machine.execNop s
  | .loadCal => Sys2Proof.Machine.execLoadCal s
  | .clearCal => Sys2Proof.Machine.execClearCal s
  | .loadUt => Sys2Proof.Machine.execLoadUt s
  | .loadUp => Sys2Proof.Machine.execLoadUp s
  | .compT => Sys2Proof.Machine.execCompT s
  | .compP => Sys2Proof.Machine.execCompP s
  | .compensate => Sys2Proof.Machine.execCompensate s
  | .illegalOp op => Sys2Proof.Machine.execIllegalOp op s
  | .illegalRsv rsv op => Sys2Proof.Machine.execIllegalRsv rsv op s

end Sys2Proof.Machine
end

