-- ==== Sys2Proof/Machine/Agents.lean ====
section
/-! DEFINITION. The steps of the four agents (00_scope.md R14): a host access (20_memory.md R50 to R60), a
stream event (R61, R62), the engine's step (42_compensation.md R140) and Reset
(70_reset_and_hazards.md R230). Here the command word written to CMD is decoded and run. -/

namespace Sys2Proof.Machine

/-- What a host write of `w` to a register other than CMD does to the SCP (R53, R54, R56). -/
def Scp.write (r : Reg) (w : Word) (c : Scp) : Scp :=
  match r with
  | .ctrl => Scp.unlessBusy (Scp.writeCtrl w) c
  | .cmd => c
  | .status => Scp.ackStatus w c
  | .ut => Scp.unlessBusy (Scp.writeUt w) c
  | .up => Scp.unlessBusy (Scp.writeUp w) c
  | .b5 => c
  | .t10 => c
  | .pComp => c
  | .coef _ => c
  | .rom _ => c
  | .reserved => c

/-- A host write: to CMD it issues the command `w` encodes (R23, R192), elsewhere it is `Scp.write`. -/
def regWrite (r : Reg) (w : Word) (s : State) : Host.Outcome State Fault Refusal :=
  if r = .cmd then exec (decode w) s else .next (s.onScp (Scp.write r w))

/-- One host access, one atomic step (R58, R60). A read returns its data and changes nothing of the SCP
(R55); an access that is no aligned word has no SCP step (R51). -/
def hostAccess (a : HostAccess) (s : State) : Host.Outcome State Fault Refusal :=
  if a.aligned then
    match a.op with
    | .read => .next { s with readData := some (s.scp.read (regAt a.off)) }
    | .write w => regWrite (regAt a.off) w s
  else .refused .hostAccess

/-- The host's turn: its next access, if it has one (else the turn is used up: DESIGN CHOICE, safe, log 17). -/
def hostTurn (s : State) : Host.Outcome State Fault Refusal :=
  match s.host with
  | [] => .next s
  | a :: as => hostAccess a { s with host := as }

/-- The commit of a load, by its kind (R102, R121, R124). -/
def Scp.commit (kind : LoadKind) (c : Scp) : Scp :=
  match kind with
  | .cal => c.commitCal
  | .ut => c.commitUt
  | .up => c.commitUp

/-- The failure of a load, by its kind (R103, R122, R125). -/
def Scp.loadFail (kind : LoadKind) (cause : FailCause) (c : Scp) : Scp :=
  match kind with
  | .cal => c.failCal cause
  | .ut => c.failUt cause
  | .up => c.failUp cause

/-- SHADOW[n] <- b (R36, R61). -/
def Scp.storeByte (b : Byte) (c : Scp) : Scp := { c with shadow := c.shadow.set c.n b }

/-- n <- n + 1 (R36, R61). The last byte of a load does not count on (DEDUCED, safe, log 15). -/
def Scp.countByte (c : Scp) : Scp := { c with n := c.n + 1 }

/-- StreamByte(b): enabled only while a load waits for bytes; the N-th byte commits (R61). -/
def Scp.streamByte (b : Byte) (c : Scp) : Scp :=
  match c.eng with
  | .idle => c
  | .loading kind =>
    if c.n.val = kind.frameBytes - 1 then (c.storeByte b).commit kind else (c.storeByte b).countByte
  | .computing _ => c

/-- STRAY_FAIL <- 1, nothing else (R62, R218). -/
def Scp.strayFailure (c : Scp) : Scp := { c with status := { c.status with strayFail := true } }

/-- StreamFail(cause): always taken (R62). -/
def Scp.streamFail (cause : FailCause) (c : Scp) : Scp :=
  match c.eng with
  | .idle => c.strayFailure
  | .loading kind => c.loadFail kind cause
  | .computing _ => c.strayFailure

/-- The stream source's turn: it presents its next event. A byte is taken only while s_ready = 1; else it
waits at the transport (R61). A failure is always taken (R62). Events come in the order of
one list (DESIGN CHOICE, safe, log 13). -/
def streamTurn (s : State) : State :=
  match s.stream with
  | [] => s
  | .byte b :: es => if s.scp.sReady then { s with stream := es, scp := s.scp.streamByte b } else s
  | .fail cause :: es => { s with stream := es, scp := s.scp.streamFail cause }

/-- Reset(): every item of the SCP takes its reset value; it runs neither Fail nor complete() (R230). The
transport and the host are not reset (R232, R233; DEDUCED, safe, log 16). -/
def resetTurn (s : State) : State := { s with scp := Scp.reset }

/-- An agent's turn. -/
def agentTurn (a : Agent) (s : State) : Host.Outcome State Fault Refusal :=
  match a with
  | .host => hostTurn s
  | .stream => .next (streamTurn s)
  | .engine => .next (s.onScp Scp.engineStep)
  | .reset => .next (resetTurn s)

/-- Take the first turn off the list. With no turn listed, the engine moves: its step happens eventually
(R245), and while it has none the SCP waits (R217; log 2). -/
def nextTurn (s : State) : Agent × State :=
  match s.turns with
  | [] => (.engine, s)
  | a :: ts => (a, { s with turns := ts })

/-- The host's write of a command word to CMD (R91: `WR CMD, w`). -/
def cmdAccess (w : Word) : HostAccess := ⟨.write w, 0x04, 4⟩

end Sys2Proof.Machine
end

