-- ==== Sys2Proof/Machine/Step.lean ====
section
/-! DEFINITION. One step of the machine: the agent whose turn it is takes its step (00_scope.md R14). The SCP
fetches no instructions (10_state.md R39): a command comes from the host's write to CMD. -/

namespace Sys2Proof.Machine

/-- One step. -/
def step (s : State) : Host.Outcome State Fault Refusal :=
  agentTurn (nextTurn s).1 (nextTurn s).2

/-- `s` with the host about to write the command word `w` to CMD, as its next access, on the next turn: the
next step runs that command (log 1). Nothing else changes. -/
def State.withFetchWord (s : State) (nbits w : Nat) : State :=
  { s with
    host := cmdAccess (BitVec.ofNat 32 (w % 2 ^ nbits)) :: s.host
    turns := .host :: s.turns }

end Sys2Proof.Machine
end

