-- ==== Sys2Proof/Safety.lean ====
section
/-! DEFINITION. What a legal state of the SCP is, in the terms the statements use, and what a run without a
stop is. -/

namespace Sys2Proof.Machine

/-- The values ERR, ERR_SUB and ERR_INFO can hold together (60_exceptions.md R200, R201). An OVERFLOW's step
code is here any code of the sequence; that only 0x2D and 0x2F occur is a statement of its own (R170). -/
def Status.ErrRecord (st : Status) : Prop :=
  match st.err with
  | .noError => st.errSub = 0 ∧ st.errInfo = 0
  | .busError => st.errSub.toNat ≤ 1 ∧ st.errInfo.toNat ≤ 21
  | .uncalibrated => st.errSub.toNat ≤ 1 ∧ st.errInfo = 0
  | .noRaw => st.errSub.toNat ≤ 1 ∧ st.errInfo = 0
  | .noB5 => st.errSub = 0 ∧ st.errInfo = 0
  | .divZero => st.errSub = 0 ∧ (st.errInfo = 0x12 ∨ st.errInfo = 0x2C)
  | .overflow => st.errSub = 0 ∧ ∃ c : StepCode, st.errInfo = c.code
  | .illegalCmd => (st.errSub = 0 ∧ 8 ≤ st.errInfo.toNat) ∨ st.errSub = 1

/-- The legal states of the SCP: what the rules promise of every state a run reaches. -/
structure Scp.Legal (c : Scp) : Prop where
  /-- Reserved bits of CTRL are never set (R22, R194). -/
  ctrl_reserved : c.ctrl &&& ~~~ctrlMask = 0
  /-- "B5_VALID = 1 implies CAL_VALID = 1" (R26). -/
  b5_needs_cal : c.status.b5Valid = true → c.status.calValid = true
  /-- No b5 of the old coefficients survives into a reload (R100). -/
  reload_voids_b5 : c.eng = .loading .cal → c.status.b5Valid = false
  /-- 0 ≤ n < N while a load waits (R36). -/
  count_in_frame : ∀ k, c.eng = .loading k → c.n.val < k.frameBytes
  /-- A compute in progress has the inputs its issue checked (R140, R143, R145, R147). -/
  compute_has_inputs : ∀ k, c.eng = .computing k →
    c.status.calValid = true ∧ (k ≠ .p → c.status.utValid = true) ∧
    (k ≠ .t → c.status.upValid = true) ∧ (k = .p → c.status.b5Valid = true)
  /-- LOSS equals CTRL.OSS for the whole of the command that latched it (R37). -/
  loss_latched : c.eng = .loading .up ∨ c.eng = .computing .p ∨ c.eng = .computing .tp → c.loss = c.oss
  /-- The error record is one of R201's. -/
  err_record : c.status.ErrRecord
  /-- ERR is 0 while BUSY = 1: acceptance clears it (R192), and a running command writes it only through Fail,
  which ends the command (R205, R206). -/
  busy_no_error : c.eng ≠ .idle → c.status.err = .noError

/-- B5 holds a value that a temperature path can give (R170). -/
def Scp.B5InRange (c : Scp) : Prop := -67239932 ≤ sext c.b5 ∧ sext c.b5 ≤ 67239932

/-- Every access the host has still to perform is an aligned word (R50). -/
def State.HostAligned (s : State) : Prop := ∀ a ∈ s.host, a.aligned = true

/-- Two SCPs that differ at most in SHADOW bytes no load in progress has taken (R36, I6). -/
def Scp.SameButStaleShadow (c d : Scp) : Prop :=
  d = { c with shadow := d.shadow } ∧
  ∀ k, c.eng = .loading k → ∀ j : Fin 22, j.val < c.n.val → c.shadow[j] = d.shadow[j]

end Sys2Proof.Machine
end

