-- ==== Sys2Proof/Certificates/Slice0/Obligations.lean ====
section
/-! DEFINITION. The statements for the provers, from the numbered rules of spec/. -/

open Sys2Proof Sys2Proof.Machine

/-! ## Encoding -/

/-- Decoding the word of a well-formed instruction gives the instruction back, for all instructions and every
value of their fields (R80 to R85). -/
def Obligations.DecodeEncodeRoundTrip : Prop :=
  ∀ i : Instr, i.WellFormed → decode (encode i) = i

/-- Every word decodes to a well-formed instruction whose word it is (R85). -/
def Obligations.EncodeDecodeRoundTrip : Prop :=
  ∀ w : Word, (decode w).WellFormed ∧ encode (decode w) = w

/-- R85: the decoding of every word, and the 37 rows of the opcode table. That every word matches exactly one row,
that of its instruction, is an inference the spec marks as its own ("Every 32-bit word matches exactly one row
[derived: from this rule]"). -/
def Obligations.OpcodeMapIsTotalAndUnambiguous : Prop :=
  (∀ w : Word, decode w =
    if w.toNat / 256 ≠ 0 then .illegalRsv (BitVec.ofNat 24 (w.toNat / 256)) (BitVec.ofNat 8 w.toNat)
    else match w.toNat % 256 with
      | 0x00 => .nop
      | 0x01 => .loadCal
      | 0x02 => .clearCal
      | 0x03 => .loadUt
      | 0x04 => .loadUp
      | 0x05 => .compT
      | 0x06 => .compP
      | 0x07 => .compensate
      | op => .illegalOp (BitVec.ofNat 8 op)) ∧
  opcodeRows.length = 37 ∧
  ∀ w : Word, ∃ r, opcodeRows.filter (fun r => r.accepts w) = [r] ∧ r.mnemonic = (decode w).mnemonic

/-- Words written out from R81, R82 and R83. -/
def Obligations.WordsOfTheOpcodeMapDecode : Prop :=
  decode 0x00000000 = .nop ∧ decode 0x00000001 = .loadCal ∧ decode 0x00000002 = .clearCal ∧
  decode 0x00000003 = .loadUt ∧ decode 0x00000004 = .loadUp ∧ decode 0x00000005 = .compT ∧
  decode 0x00000006 = .compP ∧ decode 0x00000007 = .compensate ∧
  decode 0x00000008 = .illegalOp 0x08 ∧ decode 0x000000FF = .illegalOp 0xFF ∧
  decode 0x00000100 = .illegalRsv 0x000001 0x00 ∧ decode 0xFFFFFFFF = .illegalRsv 0xFFFFFF 0xFF

/-! ## Steps -/

/-- A host turn performs the host's next access; a write of a word to CMD runs the instruction the word decodes
to, on the state with that turn and that access taken (R23, R58, R192). The lists of turns and of accesses, and
`State.withFetchWord`, which puts the write of one command word first on both, are the model's own scheduling
(DESIGN CHOICE, log 1); that such a step runs the instruction whose word it is says so of every instruction. -/
def Obligations.StepRunsTheDecodedCommand : Prop :=
  (∀ (s : State) (ts : List Agent) (a : HostAccess) (as : List HostAccess),
    s.turns = .host :: ts → s.host = a :: as →
    Machine.step s = hostAccess a { s with turns := ts, host := as }) ∧
  (∀ (s : State) (w : Word), hostAccess ⟨.write w, 0x04, 4⟩ s = exec (decode w) s) ∧
  (∀ (s : State) (i : Instr), i.WellFormed →
    Machine.step (s.withFetchWord 32 (encode i).toNat) = exec i s)

/-- Nothing stops the machine but a host access that is no aligned word: the model has no step for it (R51,
R210). No step is a fault. -/
def Obligations.StepStopsOnlyOnBadAccess : Prop :=
  ∀ s : State,
    ((∃ t, Machine.step s = .next t) ∧
      ∀ ts a as, s.turns = .host :: ts → s.host = a :: as → a.size = 4 ∧ a.off.toNat % 4 = 0) ∨
    (Machine.step s = .refused .hostAccess ∧
      ∃ ts a as, s.turns = .host :: ts ∧ s.host = a :: as ∧ ¬ (a.size = 4 ∧ a.off.toNat % 4 = 0))

/-! ## Commands -/

/-- R190. -/
def Obligations.NopChangesNothing : Prop :=
  ∀ s : State,
    (s.scp.eng = .idle → exec .nop s = .next s) ∧
    (s.scp.eng ≠ .idle →
      exec .nop s = .next { s with scp := { s.scp with status := { s.scp.status with wrRej := true } } })

/-- R191: the error record and IRQ_ERR; every valid bit and data register keeps its value. -/
def Obligations.IllegalWordRecordsIllegalCmd : Prop :=
  ∀ s : State, s.scp.eng = .idle →
    (∀ op : BitVec 8, 8 ≤ op.toNat →
      exec (.illegalOp op) s = .next { s with scp := { s.scp with status := { s.scp.status with
        err := .illegalCmd, errSub := 0, errInfo := op, irqErr := true } } }) ∧
    (∀ (rsv : BitVec 24) (op : BitVec 8), rsv ≠ 0 →
      exec (.illegalRsv rsv op) s = .next { s with scp := { s.scp with status := { s.scp.status with
        err := .illegalCmd, errSub := 1, errInfo := op, irqErr := true } } })

/-- R100 and R192. -/
def Obligations.LoadCalStartsALoad : Prop :=
  ∀ s : State, s.scp.eng = .idle →
    exec .loadCal s = .next { s with scp := { s.scp with
      n := 0, eng := .loading .cal,
      status := { s.scp.status with b5Valid := false, err := .noError, errSub := 0, errInfo := 0 } } }

/-- R105 and R192. -/
def Obligations.ClearCalEmptiesTheStore : Prop :=
  ∀ s : State, s.scp.eng = .idle →
    exec .clearCal s = .next { s with scp := { s.scp with
      status := { s.scp.status with
        calValid := false, b5Valid := false, irqDone := true, err := .noError, errSub := 0, errInfo := 0 } } }

/-- R120 and R192. -/
def Obligations.LoadUtStartsALoad : Prop :=
  ∀ s : State, s.scp.eng = .idle →
    exec .loadUt s = .next { s with scp := { s.scp with
      n := 0, eng := .loading .ut,
      status := { s.scp.status with err := .noError, errSub := 0, errInfo := 0 } } }

/-- R123, R37 and R192. -/
def Obligations.LoadUpLatchesOssAndStartsALoad : Prop :=
  ∀ s : State, s.scp.eng = .idle →
    exec .loadUp s = .next { s with scp := { s.scp with
      loss := s.scp.ctrl.extractLsb' 0 2, n := 0, eng := .loading .up,
      status := { s.scp.status with err := .noError, errSub := 0, errInfo := 0 } } }

/-- R143 with R205 and R207: all four outcomes of issuing COMP_T. Clearing B5_VALID on UNCALIBRATED, in a state
where the rules never leave it set, is the reading of log 14. -/
def Obligations.CompTIssue : Prop :=
  ∀ s : State, s.scp.eng = .idle →
    (s.scp.status.calValid = false → s.scp.ctrl.getLsbD 8 = true →
      exec .compT s = .next { s with scp := { s.scp with
        t10 := 0,
        status := { s.scp.status with
          tValid := true, pValid := false, irqDone := true,
          err := .uncalibrated, errSub := 1, errInfo := 0 } } }) ∧
    (s.scp.status.calValid = false → s.scp.ctrl.getLsbD 8 = false →
      exec .compT s = .next { s with scp := { s.scp with
        status := { s.scp.status with
          b5Valid := false, tValid := false, pValid := false, irqErr := true,
          err := .uncalibrated, errSub := 0, errInfo := 0 } } }) ∧
    (s.scp.status.calValid = true → s.scp.status.utValid = false →
      exec .compT s = .next { s with scp := { s.scp with
        status := { s.scp.status with
          b5Valid := false, tValid := false, pValid := false, irqErr := true,
          err := .noRaw, errSub := 0, errInfo := 0 } } }) ∧
    (s.scp.status.calValid = true → s.scp.status.utValid = true →
      exec .compT s = .next { s with scp := { s.scp with
        eng := .computing .t,
        status := { s.scp.status with err := .noError, errSub := 0, errInfo := 0 } } })

/-- R145 with R205 and R207: all five outcomes of issuing COMP_P. B5_VALID is never changed. -/
def Obligations.CompPIssue : Prop :=
  ∀ s : State, s.scp.eng = .idle →
    (s.scp.status.calValid = false → s.scp.ctrl.getLsbD 8 = true →
      exec .compP s = .next { s with scp := { s.scp with
        pComp := 0,
        status := { s.scp.status with
          pValid := true, irqDone := true, err := .uncalibrated, errSub := 1, errInfo := 0 } } }) ∧
    (s.scp.status.calValid = false → s.scp.ctrl.getLsbD 8 = false →
      exec .compP s = .next { s with scp := { s.scp with
        status := { s.scp.status with
          tValid := false, pValid := false, irqErr := true,
          err := .uncalibrated, errSub := 0, errInfo := 0 } } }) ∧
    (s.scp.status.calValid = true → s.scp.status.upValid = false →
      exec .compP s = .next { s with scp := { s.scp with
        status := { s.scp.status with
          tValid := false, pValid := false, irqErr := true,
          err := .noRaw, errSub := 1, errInfo := 0 } } }) ∧
    (s.scp.status.calValid = true → s.scp.status.upValid = true → s.scp.status.b5Valid = false →
      exec .compP s = .next { s with scp := { s.scp with
        status := { s.scp.status with
          tValid := false, pValid := false, irqErr := true,
          err := .noB5, errSub := 0, errInfo := 0 } } }) ∧
    (s.scp.status.calValid = true → s.scp.status.upValid = true → s.scp.status.b5Valid = true →
      exec .compP s = .next { s with scp := { s.scp with
        loss := s.scp.ctrl.extractLsb' 0 2, eng := .computing .p,
        status := { s.scp.status with err := .noError, errSub := 0, errInfo := 0 } } })

/-- R147 with R205 and R207: all five outcomes of issuing COMPENSATE. Clearing B5_VALID on UNCALIBRATED is the
reading of log 14. -/
def Obligations.CompensateIssue : Prop :=
  ∀ s : State, s.scp.eng = .idle →
    (s.scp.status.calValid = false → s.scp.ctrl.getLsbD 8 = true →
      exec .compensate s = .next { s with scp := { s.scp with
        t10 := 0, pComp := 0,
        status := { s.scp.status with
          tValid := true, pValid := true, irqDone := true,
          err := .uncalibrated, errSub := 1, errInfo := 0 } } }) ∧
    (s.scp.status.calValid = false → s.scp.ctrl.getLsbD 8 = false →
      exec .compensate s = .next { s with scp := { s.scp with
        status := { s.scp.status with
          b5Valid := false, tValid := false, pValid := false, irqErr := true,
          err := .uncalibrated, errSub := 0, errInfo := 0 } } }) ∧
    (s.scp.status.calValid = true → s.scp.status.utValid = false →
      exec .compensate s = .next { s with scp := { s.scp with
        status := { s.scp.status with
          b5Valid := false, tValid := false, pValid := false, irqErr := true,
          err := .noRaw, errSub := 0, errInfo := 0 } } }) ∧
    (s.scp.status.calValid = true → s.scp.status.utValid = true → s.scp.status.upValid = false →
      exec .compensate s = .next { s with scp := { s.scp with
        status := { s.scp.status with
          b5Valid := false, tValid := false, pValid := false, irqErr := true,
          err := .noRaw, errSub := 1, errInfo := 0 } } }) ∧
    (s.scp.status.calValid = true → s.scp.status.utValid = true → s.scp.status.upValid = true →
      exec .compensate s = .next { s with scp := { s.scp with
        loss := s.scp.ctrl.extractLsb' 0 2, eng := .computing .tp,
        status := { s.scp.status with err := .noError, errSub := 0, errInfo := 0 } } })

/-- While BUSY = 1 every command, legal or not, is rejected: WR_REJ <- 1 and nothing else (R54, R192, R203). -/
def Obligations.BusyRejectsEveryCommand : Prop :=
  ∀ (s : State) (i : Instr), s.scp.eng ≠ .idle →
    exec i s = .next { s with scp := { s.scp with status := { s.scp.status with wrRej := true } } }

/-- Only the three loads and the three computes make BUSY 1 (R25), and the issue of a command changes none of CTRL,
UT, UP, B5, COEF_RAW, SHADOW and the pending actions (read off R90 and the issue rules; R212 is an inference the
spec marks as its own). -/
def Obligations.OnlyLoadsAndComputesMakeBusy : Prop :=
  ∀ (s t : State) (i : Instr), s.scp.eng = .idle → exec i s = .next t →
    (t.scp.eng ≠ .idle → i = .loadCal ∨ i = .loadUt ∨ i = .loadUp ∨ i = .compT ∨ i = .compP ∨ i = .compensate) ∧
    t.scp.ctrl = s.scp.ctrl ∧ t.scp.ut = s.scp.ut ∧ t.scp.up = s.scp.up ∧ t.scp.b5 = s.scp.b5 ∧
    t.scp.coefRaw = s.scp.coefRaw ∧ t.scp.shadow = s.scp.shadow ∧
    t.turns = s.turns ∧ t.host = s.host ∧ t.stream = s.stream ∧ t.readData = s.readData

/-! ## The stream port and the loads -/

/-- R61 and R36: a byte is taken only while a load waits, else it waits at the transport; a byte that is not the
last of its load changes SHADOW[n] and n alone (R101). That a stream turn whose byte must wait is a step that only
uses up the turn is the model's choice (DESIGN CHOICE, log 17). -/
def Obligations.StreamByteIsTakenOrWaits : Prop :=
  ∀ (s : State) (ts : List Agent) (b : Byte) (es : List StreamEvent),
    s.turns = .stream :: ts → s.stream = .byte b :: es →
    ((∀ k, s.scp.eng ≠ .loading k) → Machine.step s = .next { s with turns := ts }) ∧
    (∀ k, s.scp.eng = .loading k → s.scp.n.val + 1 < k.frameBytes →
      ∃ t, Machine.step s = .next t ∧ t.turns = ts ∧ t.host = s.host ∧ t.stream = es ∧
        t.readData = s.readData ∧
        t.scp = { s.scp with n := t.scp.n, shadow := t.scp.shadow } ∧
        t.scp.n.val = s.scp.n.val + 1 ∧ t.scp.shadow[s.scp.n] = b ∧
        ∀ j : Fin 22, j ≠ s.scp.n → t.scp.shadow[j] = s.scp.shadow[j])

/-- R102: the 22nd byte writes all eleven coefficients, each 256·MSB + LSB of its byte pair, and CAL_VALID,
IRQ_DONE and ENG, in one step, and nothing else but the byte in SHADOW. -/
def Obligations.LoadCalCommit : Prop :=
  ∀ (s : State) (ts : List Agent) (b : Byte) (es : List StreamEvent),
    s.turns = .stream :: ts → s.stream = .byte b :: es →
    s.scp.eng = .loading .cal → s.scp.n.val = 21 →
    ∃ t, Machine.step s = .next t ∧ t.turns = ts ∧ t.host = s.host ∧ t.stream = es ∧
      t.readData = s.readData ∧
      t.scp = { s.scp with
        coefRaw := t.scp.coefRaw, shadow := s.scp.shadow.set 21 b, eng := .idle,
        status := { s.scp.status with calValid := true, irqDone := true } } ∧
      (∀ i : Fin 10, t.scp.coefRaw[i.val].toNat =
        256 * s.scp.shadow[2 * i.val].toNat + s.scp.shadow[2 * i.val + 1].toNat) ∧
      t.scp.coefRaw[10].toNat = 256 * s.scp.shadow[20].toNat + b.toNat

/-- R121. -/
def Obligations.LoadUtCommit : Prop :=
  ∀ (s : State) (ts : List Agent) (b : Byte) (es : List StreamEvent),
    s.turns = .stream :: ts → s.stream = .byte b :: es →
    s.scp.eng = .loading .ut → s.scp.n.val = 1 →
    Machine.step s = .next { s with
      turns := ts, stream := es,
      scp := { s.scp with
        ut := BitVec.ofNat 16 (256 * s.scp.shadow[0].toNat + b.toNat),
        shadow := s.scp.shadow.set 1 b, eng := .idle,
        status := { s.scp.status with utValid := true, irqDone := true } } }

/-- R124: UP is raw24 without its low 8 − LOSS bits. -/
def Obligations.LoadUpCommit : Prop :=
  ∀ (s : State) (ts : List Agent) (b : Byte) (es : List StreamEvent),
    s.turns = .stream :: ts → s.stream = .byte b :: es →
    s.scp.eng = .loading .up → s.scp.n.val = 2 →
    Machine.step s = .next { s with
      turns := ts, stream := es,
      scp := { s.scp with
        up := BitVec.ofNat 19
          ((s.scp.shadow[0].toNat * 2 ^ 16 + s.scp.shadow[1].toNat * 2 ^ 8 + b.toNat) / 2 ^ (8 - s.scp.loss.toNat)),
        shadow := s.scp.shadow.set 2 b, eng := .idle,
        status := { s.scp.status with upValid := true, irqDone := true } } }

/-- R103: a failed calibration load empties the store and does not write COEF_RAW. -/
def Obligations.LoadCalFailure : Prop :=
  ∀ (s : State) (ts : List Agent) (cause : FailCause) (es : List StreamEvent),
    s.turns = .stream :: ts → s.stream = .fail cause :: es → s.scp.eng = .loading .cal →
    Machine.step s = .next { s with
      turns := ts, stream := es,
      scp := { s.scp with
        eng := .idle,
        status := { s.scp.status with
          calValid := false, tValid := false, pValid := false, irqErr := true, err := .busError,
          errSub := (match cause with | .transport => 0 | .shortRead => 1),
          errInfo := BitVec.ofNat 8 s.scp.n.val } } }

/-- R122 and R125: a failed raw load clears its valid bit and does not write UT or UP. -/
def Obligations.RawLoadFailure : Prop :=
  ∀ (s : State) (ts : List Agent) (cause : FailCause) (es : List StreamEvent),
    s.turns = .stream :: ts → s.stream = .fail cause :: es →
    (s.scp.eng = .loading .ut →
      Machine.step s = .next { s with
        turns := ts, stream := es,
        scp := { s.scp with
          eng := .idle,
          status := { s.scp.status with
            utValid := false, tValid := false, pValid := false, irqErr := true, err := .busError,
            errSub := (match cause with | .transport => 0 | .shortRead => 1),
            errInfo := BitVec.ofNat 8 s.scp.n.val } } }) ∧
    (s.scp.eng = .loading .up →
      Machine.step s = .next { s with
        turns := ts, stream := es,
        scp := { s.scp with
          eng := .idle,
          status := { s.scp.status with
            upValid := false, tValid := false, pValid := false, irqErr := true, err := .busError,
            errSub := (match cause with | .transport => 0 | .shortRead => 1),
            errInfo := BitVec.ofNat 8 s.scp.n.val } } })

/-- R62 and R218: a failure outside a load sets STRAY_FAIL and nothing else. -/
def Obligations.StrayFailureSetsItsBitOnly : Prop :=
  ∀ (s : State) (ts : List Agent) (cause : FailCause) (es : List StreamEvent),
    s.turns = .stream :: ts → s.stream = .fail cause :: es → (∀ k, s.scp.eng ≠ .loading k) →
    Machine.step s = .next { s with
      turns := ts, stream := es,
      scp := { s.scp with status := { s.scp.status with strayFail := true } } }

/-- UP of a frame is raw24 shifted right by 8 − oss (R89), for every frame and oss. That it is below 2^(16 + oss) is
an inference the spec marks as its own ("The bound on UP is derived"). -/
def Obligations.UpFrameIsTheShiftedReading : Prop :=
  ∀ (msb lsb xlsb : Byte) (oss : BitVec 2),
    (upFrame msb lsb xlsb oss).toNat =
      (msb.toNat * 2 ^ 16 + lsb.toNat * 2 ^ 8 + xlsb.toNat) / 2 ^ (8 - oss.toNat) ∧
    (upFrame msb lsb xlsb oss).toNat < 2 ^ (16 + oss.toNat)

/-- Every calibration frame is recovered from the values of its eleven coefficients. An inference the spec marks as
its own (R104: "Re-encoding each coefficient value v gives the original bytes"). -/
def Obligations.CalibrationDecodingIsReversible : Prop :=
  ∀ (sh : Vector Byte 22) (i : Fin 11),
    patternBytes (coefPattern (coefValue i (calFrame sh)[i])) = (sh[2 * i.val], sh[2 * i.val + 1])

/-- R87: how a pattern of each class reads: AC4, AC5 and AC6 unsigned, the other eight in two's complement. -/
def Obligations.CoefficientClasses : Prop :=
  ∀ (c : Scp) (i : Fin 11),
    c.coef i =
      if i = 3 ∨ i = 4 ∨ i = 5 then (c.coefRaw[i].toNat : Int)
      else if c.coefRaw[i].toNat > 32767 then (c.coefRaw[i].toNat : Int) - 65536
      else (c.coefRaw[i].toNat : Int)

/-! ## The register window -/

/-- R21: the register at every aligned offset. -/
def Obligations.RegisterMap : Prop :=
  regAt 0x00 = .ctrl ∧ regAt 0x04 = .cmd ∧ regAt 0x08 = .status ∧ regAt 0x0C = .ut ∧ regAt 0x10 = .up ∧
  regAt 0x14 = .b5 ∧ regAt 0x18 = .t10 ∧ regAt 0x1C = .pComp ∧
  (∀ i : Fin 11, regAt (BitVec.ofNat 8 (0x20 + 4 * i.val)) = .coef i) ∧
  (∀ k : Fin 9, regAt (BitVec.ofNat 8 (0x80 + 4 * k.val)) = .rom k) ∧
  (∀ off : BitVec 8, off.toNat % 4 = 0 →
    (0x4C ≤ off.toNat ∧ off.toNat ≤ 0x7C ∨ 0xA4 ≤ off.toNat) → regAt off = .reserved)

/-- R55: a read gives data and changes no state of the SCP; the same read at once gives the same data. -/
def Obligations.HostReadsHaveNoSideEffects : Prop :=
  ∀ (s : State) (off : BitVec 8), off.toNat % 4 = 0 →
    ∃ v, hostAccess ⟨.read, off, 4⟩ s = .next { s with readData := some v } ∧
      hostAccess ⟨.read, off, 4⟩ { s with readData := some v } = .next { s with readData := some v }

/-- R193: the value of every read, in every state, busy or not. -/
def Obligations.ReadValues : Prop :=
  ∀ s : State,
    let reads (off : BitVec 8) (v : Word) : Prop :=
      hostAccess ⟨.read, off, 4⟩ s = .next { s with readData := some v }
    reads 0x00 (BitVec.ofNat 32 (s.scp.oss.toNat + 2 ^ 4 * s.scp.ieDone.toNat + 2 ^ 5 * s.scp.ieErr.toNat +
      2 ^ 8 * s.scp.legacyZeroOn.toNat)) ∧
    reads 0x04 0 ∧
    reads 0x08 (BitVec.ofNat 32 ((decide (s.scp.eng ≠ .idle)).toNat + 2 * s.scp.status.calValid.toNat +
      2 ^ 2 * s.scp.status.utValid.toNat + 2 ^ 3 * s.scp.status.upValid.toNat +
      2 ^ 4 * s.scp.status.b5Valid.toNat + 2 ^ 5 * s.scp.status.tValid.toNat +
      2 ^ 6 * s.scp.status.pValid.toNat + 2 ^ 8 * s.scp.status.wrRej.toNat +
      2 ^ 9 * s.scp.status.irqDone.toNat + 2 ^ 10 * s.scp.status.irqErr.toNat +
      2 ^ 11 * s.scp.status.strayFail.toNat + 2 ^ 16 * s.scp.status.err.code.toNat +
      2 ^ 20 * s.scp.status.errSub.toNat + 2 ^ 24 * s.scp.status.errInfo.toNat)) ∧
    reads 0x0C (BitVec.ofNat 32 s.scp.ut.toNat) ∧ reads 0x10 (BitVec.ofNat 32 s.scp.up.toNat) ∧
    reads 0x14 s.scp.b5 ∧ reads 0x18 s.scp.t10 ∧ reads 0x1C s.scp.pComp ∧
    (∀ i : Fin 11, reads (BitVec.ofNat 8 (0x20 + 4 * i.val))
      (if s.scp.status.calValid = false then 0
       else if i = 3 ∨ i = 4 ∨ i = 5 then BitVec.ofNat 32 s.scp.coefRaw[i].toNat
       else BitVec.ofInt 32 s.scp.coefRaw[i].toInt)) ∧
    reads 0x80 0x00000008 ∧ reads 0x84 0x00000FA0 ∧ reads 0x88 0x00000002 ∧ reads 0x8C 0x00000002 ∧
    reads 0x90 0x00008000 ∧ reads 0x94 0x0000C350 ∧ reads 0x98 0x00000BDE ∧ reads 0x9C 0xFFFFE343 ∧
    reads 0xA0 0x00000ECF ∧
    (∀ off : BitVec 8, off.toNat % 4 = 0 →
      (0x4C ≤ off.toNat ∧ off.toNat ≤ 0x7C ∨ 0xA4 ≤ off.toNat) → reads off 0)

/-- R54: while BUSY = 1 a write of CTRL, CMD, UT or UP only sets WR_REJ; writes of STATUS and of read-only
offsets are handled as usual. -/
def Obligations.BusyRejectsRegisterWrites : Prop :=
  ∀ (s : State) (w : Word), s.scp.eng ≠ .idle →
    (∀ off : BitVec 8, off = 0x00 ∨ off = 0x04 ∨ off = 0x0C ∨ off = 0x10 →
      hostAccess ⟨.write w, off, 4⟩ s =
        .next { s with scp := { s.scp with status := { s.scp.status with wrRej := true } } }) ∧
    hostAccess ⟨.write w, 0x08, 4⟩ s = .next { s with scp := { s.scp with status := s.scp.status.w1c w } } ∧
    (∀ off : BitVec 8, off.toNat % 4 = 0 → 0x14 ≤ off.toNat → hostAccess ⟨.write w, off, 4⟩ s = .next s)

/-- R194: a CTRL write keeps the defined fields only, takes effect at once, and reads back; irq follows. -/
def Obligations.CtrlWriteIsMaskedAndReadsBack : Prop :=
  ∀ (s : State) (w : Word),
    (s.scp.eng = .idle → ∃ t, hostAccess ⟨.write w, 0x00, 4⟩ s = .next t ∧
      t = { s with scp := { s.scp with ctrl := w &&& 0x00000133 } } ∧
      t.scp.read .ctrl = w &&& 0x00000133 ∧
      t.scp.irq = ((s.scp.status.irqDone && w.getLsbD 4) || (s.scp.status.irqErr && w.getLsbD 5))) ∧
    (s.scp.eng ≠ .idle → hostAccess ⟨.write w, 0x00, 4⟩ s =
      .next { s with scp := { s.scp with status := { s.scp.status with wrRej := true } } })

/-- R195 and R27: a STATUS write, in every state, clears the W1C bits written with 1 and changes nothing
else. -/
def Obligations.StatusWriteClearsFlags : Prop :=
  ∀ (s : State) (w : Word),
    hostAccess ⟨.write w, 0x08, 4⟩ s = .next { s with scp := { s.scp with status := { s.scp.status with
      wrRej := s.scp.status.wrRej && !w.getLsbD 8,
      irqDone := s.scp.status.irqDone && !w.getLsbD 9,
      irqErr := s.scp.status.irqErr && !w.getLsbD 10,
      strayFail := s.scp.status.strayFail && !w.getLsbD 11 } } }

/-- R126 and R127: a host write of UT or UP while BUSY = 0 keeps the low 16 or 19 bits and sets the valid
bit. -/
def Obligations.RawRegisterWrites : Prop :=
  ∀ (s : State) (w : Word), s.scp.eng = .idle →
    hostAccess ⟨.write w, 0x0C, 4⟩ s = .next { s with scp := { s.scp with
      ut := BitVec.ofNat 16 w.toNat, status := { s.scp.status with utValid := true } } } ∧
    hostAccess ⟨.write w, 0x10, 4⟩ s = .next { s with scp := { s.scp with
      up := BitVec.ofNat 19 w.toNat, status := { s.scp.status with upValid := true } } }

/-- R53: writes to read-only and reserved offsets change nothing, in every state; the reserved bits of a word
written to CTRL, STATUS, UT or UP do not matter. -/
def Obligations.ReadOnlyWritesAreIgnored : Prop :=
  ∀ (s : State) (w : Word),
    (∀ off : BitVec 8, off.toNat % 4 = 0 → 0x14 ≤ off.toNat → hostAccess ⟨.write w, off, 4⟩ s = .next s) ∧
    hostAccess ⟨.write w, 0x00, 4⟩ s = hostAccess ⟨.write (w &&& 0x00000133), 0x00, 4⟩ s ∧
    hostAccess ⟨.write w, 0x08, 4⟩ s = hostAccess ⟨.write (w &&& 0x00000F00), 0x08, 4⟩ s ∧
    hostAccess ⟨.write w, 0x0C, 4⟩ s = hostAccess ⟨.write (w &&& 0x0000FFFF), 0x0C, 4⟩ s ∧
    hostAccess ⟨.write w, 0x10, 4⟩ s = hostAccess ⟨.write (w &&& 0x0007FFFF), 0x10, 4⟩ s

/-- R50 and R51: only 4-byte accesses at multiples of 4 are defined, any other is refused; offset `off` is
reached at SCP_BASE + off, and no other address falls in the window. -/
def Obligations.OnlyAlignedWordsReachTheWindow : Prop :=
  (∀ (s : State) (a : HostAccess), ¬ (a.size = 4 ∧ a.off.toNat % 4 = 0) →
    hostAccess a s = .refused .hostAccess) ∧
  (∀ (op : HostOp) (off : BitVec 8) (size : Nat),
    HostAccess.atAddress op (Config.scpBase + off.toNat) size = some ⟨op, off, size⟩) ∧
  (∀ (op : HostOp) (addr size : Nat), addr < Config.scpBase ∨ Config.scpBase + 256 ≤ addr →
    HostAccess.atAddress op addr size = none)

/-- R40 and R41. -/
def Obligations.OutputsIrqAndReady : Prop :=
  ∀ c : Scp,
    (c.irq = true ↔
      (c.status.irqDone = true ∧ c.ctrl.getLsbD 4 = true) ∨ (c.status.irqErr = true ∧ c.ctrl.getLsbD 5 = true)) ∧
    (c.sReady = true ↔ ∃ k, c.eng = .loading k)

/-! ## Reset -/

/-- R42: what reset leaves; SHADOW is left out, because the rule leaves it unspecified. -/
def Obligations.ResetValues : Prop :=
  State.reset.scp.ctrl = 0 ∧ State.reset.scp.read .status = 0 ∧
  State.reset.scp.ut = 0 ∧ State.reset.scp.up = 0 ∧
  State.reset.scp.b5 = 0 ∧ State.reset.scp.t10 = 0 ∧ State.reset.scp.pComp = 0 ∧
  (∀ i : Fin 11, State.reset.scp.coefRaw[i] = 0) ∧
  State.reset.scp.eng = .idle ∧ State.reset.scp.n = 0 ∧ State.reset.scp.loss = 0 ∧
  State.reset.scp.irq = false ∧ State.reset.scp.sReady = false

/-- R230: from every state a reset turn gives the SCP its reset values, all but the unspecified SHADOW, and
touches neither the transport (R232, R233) nor the host. That the host's accesses, the remaining turns and the
data of the last read stay as they are is the model's reading (DEDUCED, log 16). -/
def Obligations.ResetTurnRestoresResetValues : Prop :=
  ∀ (s : State) (ts : List Agent), s.turns = .reset :: ts →
    ∃ t, Machine.step s = .next t ∧
      t.scp = { State.reset.scp with shadow := t.scp.shadow } ∧
      t.scp.ctrl = 0 ∧ t.scp.read .status = 0 ∧ t.scp.ut = 0 ∧ t.scp.up = 0 ∧
      t.scp.b5 = 0 ∧ t.scp.t10 = 0 ∧ t.scp.pComp = 0 ∧ (∀ i : Fin 11, t.scp.coefRaw[i] = 0) ∧
      t.scp.eng = .idle ∧ t.scp.n = 0 ∧ t.scp.loss = 0 ∧ t.scp.irq = false ∧ t.scp.sReady = false ∧
      (∀ k : Fin 9, t.scp.read (.rom k) = s.scp.read (.rom k)) ∧
      t.turns = ts ∧ t.host = s.host ∧ t.stream = s.stream ∧ t.readData = s.readData

/-! ## The compensation engine -/

/-- R11: fdiv is the one floor quotient, for both signs of the divisor, and asr the floor division by 2^k. -/
def Obligations.FloorDivision : Prop :=
  (∀ a b q : Int,
    (0 < b → (q = fdiv a b ↔ q * b ≤ a ∧ a < q * b + b)) ∧
    (b < 0 → (q = fdiv a b ↔ q * b ≥ a ∧ a > q * b + b))) ∧
  ∀ (a : Int) (k : Nat), asr a k = fdiv a (2 ^ k)

/-- R140: the engine moves the SCP only while ENG = COMPUTING, and then leaves it IDLE. That a
turn listed for the engine is its step, and so is a turn taken when none is listed, is the model's scheduling
(DESIGN CHOICE, logs 1 and 2). -/
def Obligations.EngineStepsOnlyWhileComputing : Prop :=
  ∀ (s : State) (ts : List Agent), s.turns = .engine :: ts ∨ (s.turns = [] ∧ ts = []) →
    ((∀ k, s.scp.eng ≠ .computing k) → Machine.step s = .next { s with turns := ts }) ∧
    (∀ k, s.scp.eng = .computing k →
      ∃ t, Machine.step s = .next t ∧ t.scp.eng = .idle ∧
        t.turns = ts ∧ t.host = s.host ∧ t.stream = s.stream ∧ t.readData = s.readData)

/-- R144 with R205 and R206, on the operands of R142 (b): UT, and COEF_RAW[4], [5] unsigned (AC5, AC6), [9], [10]
signed (MC, MD). The turn taken when none is listed is the model's scheduling (log 2). -/
def Obligations.CompTEngineStep : Prop :=
  ∀ (s : State) (ts : List Agent), s.turns = .engine :: ts ∨ (s.turns = [] ∧ ts = []) → s.scp.eng = .computing .t →
    (∀ b5 t10, tseq s.scp.ut.toNat s.scp.coefRaw[4].toNat s.scp.coefRaw[5].toNat s.scp.coefRaw[9].toInt
        s.scp.coefRaw[10].toInt = .ok (b5, t10) →
      Machine.step s = .next { s with turns := ts, scp := { s.scp with
        b5 := BitVec.ofInt 32 b5, t10 := BitVec.ofInt 32 t10, eng := .idle,
        status := { s.scp.status with b5Valid := true, tValid := true, pValid := false, irqDone := true } } }) ∧
    (∀ e, tseq s.scp.ut.toNat s.scp.coefRaw[4].toNat s.scp.coefRaw[5].toNat s.scp.coefRaw[9].toInt
        s.scp.coefRaw[10].toInt = .error e →
      Machine.step s = .next { s with turns := ts, scp := { s.scp with
        eng := .idle,
        status := { s.scp.status with
          b5Valid := false, tValid := false, pValid := false, irqErr := true,
          err := (match e with | .divZero _ => .divZero | .overflow _ => .overflow),
          errSub := 0,
          errInfo := (match e with | .divZero c => c.code | .overflow c => c.code) } } })

/-- R146 with R205 and R206, on the operands of R142 (b): UP, b5 from the B5 register, COEF_RAW[0], [1], [2] signed
(AC1, AC2, AC3), [3] unsigned (AC4), [6], [7] signed (B1, B2), and oss = LOSS. B5_VALID is unchanged. The turn taken
when none is listed is the model's scheduling (log 2). -/
def Obligations.CompPEngineStep : Prop :=
  ∀ (s : State) (ts : List Agent), s.turns = .engine :: ts ∨ (s.turns = [] ∧ ts = []) → s.scp.eng = .computing .p →
    (∀ pc, pseq s.scp.up.toNat s.scp.b5.toInt s.scp.coefRaw[0].toInt s.scp.coefRaw[1].toInt s.scp.coefRaw[2].toInt
        s.scp.coefRaw[3].toNat s.scp.coefRaw[6].toInt s.scp.coefRaw[7].toInt s.scp.loss.toNat = .ok pc →
      Machine.step s = .next { s with turns := ts, scp := { s.scp with
        pComp := BitVec.ofInt 32 pc, eng := .idle,
        status := { s.scp.status with pValid := true, irqDone := true } } }) ∧
    (∀ c, pseq s.scp.up.toNat s.scp.b5.toInt s.scp.coefRaw[0].toInt s.scp.coefRaw[1].toInt s.scp.coefRaw[2].toInt
        s.scp.coefRaw[3].toNat s.scp.coefRaw[6].toInt s.scp.coefRaw[7].toInt s.scp.loss.toNat = .error (.divZero c) →
      Machine.step s = .next { s with turns := ts, scp := { s.scp with
        eng := .idle,
        status := { s.scp.status with
          tValid := false, pValid := false, irqErr := true,
          err := .divZero, errSub := 0, errInfo := c.code } } }) ∧
    (∀ c, pseq s.scp.up.toNat s.scp.b5.toInt s.scp.coefRaw[0].toInt s.scp.coefRaw[1].toInt s.scp.coefRaw[2].toInt
        s.scp.coefRaw[3].toNat s.scp.coefRaw[6].toInt s.scp.coefRaw[7].toInt s.scp.loss.toNat = .error (.overflow c) →
      Machine.step s = .next { s with turns := ts, scp := { s.scp with
        eng := .idle,
        status := { s.scp.status with
          tValid := false, pValid := false, irqErr := true,
          err := .overflow, errSub := 0, errInfo := c.code } } })

/-- R148 with R205 and R206, on the operands of R142 (b): b5 is passed internally, and a failure of either part
writes no result. The turn taken when none is listed is the model's scheduling (log 2). -/
def Obligations.CompensateEngineStep : Prop :=
  ∀ (s : State) (ts : List Agent), s.turns = .engine :: ts ∨ (s.turns = [] ∧ ts = []) → s.scp.eng = .computing .tp →
    (∀ b5 t10 pc,
      tseq s.scp.ut.toNat s.scp.coefRaw[4].toNat s.scp.coefRaw[5].toNat s.scp.coefRaw[9].toInt
        s.scp.coefRaw[10].toInt = .ok (b5, t10) →
      pseq s.scp.up.toNat b5 s.scp.coefRaw[0].toInt s.scp.coefRaw[1].toInt s.scp.coefRaw[2].toInt
        s.scp.coefRaw[3].toNat s.scp.coefRaw[6].toInt s.scp.coefRaw[7].toInt s.scp.loss.toNat = .ok pc →
      Machine.step s = .next { s with turns := ts, scp := { s.scp with
        b5 := BitVec.ofInt 32 b5, t10 := BitVec.ofInt 32 t10, pComp := BitVec.ofInt 32 pc, eng := .idle,
        status := { s.scp.status with b5Valid := true, tValid := true, pValid := true, irqDone := true } } }) ∧
    (∀ e,
      (tseq s.scp.ut.toNat s.scp.coefRaw[4].toNat s.scp.coefRaw[5].toNat s.scp.coefRaw[9].toInt
        s.scp.coefRaw[10].toInt = .error e ∨
       ∃ b5 t10, tseq s.scp.ut.toNat s.scp.coefRaw[4].toNat s.scp.coefRaw[5].toNat s.scp.coefRaw[9].toInt
        s.scp.coefRaw[10].toInt = .ok (b5, t10) ∧
        pseq s.scp.up.toNat b5 s.scp.coefRaw[0].toInt s.scp.coefRaw[1].toInt s.scp.coefRaw[2].toInt
        s.scp.coefRaw[3].toNat s.scp.coefRaw[6].toInt s.scp.coefRaw[7].toInt s.scp.loss.toNat = .error e) →
      Machine.step s = .next { s with turns := ts, scp := { s.scp with
        eng := .idle,
        status := { s.scp.status with
          b5Valid := false, tValid := false, pValid := false, irqErr := true,
          err := (match e with | .divZero _ => .divZero | .overflow _ => .overflow),
          errSub := 0,
          errInfo := (match e with | .divZero c => c.code | .overflow c => c.code) } } })

/-- What the temperature sequence computes for every operand of R142 (b), by the formulas of R150 to R153. That its
only failure is the zero divisor of T2, that no range check fails, and the bound on b5 are inferences the spec marks
as its own (R170: "No check of steps T1 to P12 can fail"). -/
def Obligations.TemperatureSequence : Prop :=
  ∀ ut ac5 ac6 mc md : Int,
    0 ≤ ut → ut < 2 ^ 16 → 0 ≤ ac5 → ac5 < 2 ^ 16 → 0 ≤ ac6 → ac6 < 2 ^ 16 →
    -(2 ^ 15) ≤ mc → mc < 2 ^ 15 → -(2 ^ 15) ≤ md → md < 2 ^ 15 →
    let x1 := fdiv ((ut - ac6) * ac5) (2 ^ 15)
    let b5 := x1 + fdiv (mc * 2 ^ 11) (x1 + md)
    (x1 + md = 0 → tseq ut ac5 ac6 mc md = .error (.divZero .t2)) ∧
    (x1 + md ≠ 0 →
      tseq ut ac5 ac6 mc md = .ok (b5, fdiv (b5 + 8) (2 ^ 4)) ∧ -67239932 ≤ b5 ∧ b5 ≤ 67239932)

/-- What the pressure sequence computes for every operand of R142 (b) and every b5 that a temperature sequence gives,
by the formulas of R154 to R168. It fails by DIV_ZERO at P12 exactly when B4 = 0, by OVERFLOW at P13 exactly when
|P| ≥ 3037000500, and by OVERFLOW at P15 exactly when the result leaves 32 bits; no other check fails. That is an
inference the spec marks as its own (R170: "OVERFLOW can be raised at only two checks"). -/
def Obligations.PressureSequence : Prop :=
  ∀ (up b5 ac1 ac2 ac3 ac4 b1 b2 : Int) (oss : Nat),
    0 ≤ up → up < 2 ^ 19 → -67239932 ≤ b5 → b5 ≤ 67239932 →
    -(2 ^ 15) ≤ ac1 → ac1 < 2 ^ 15 → -(2 ^ 15) ≤ ac2 → ac2 < 2 ^ 15 → -(2 ^ 15) ≤ ac3 → ac3 < 2 ^ 15 →
    0 ≤ ac4 → ac4 < 2 ^ 16 → -(2 ^ 15) ≤ b1 → b1 < 2 ^ 15 → -(2 ^ 15) ≤ b2 → b2 < 2 ^ 15 → oss ≤ 3 →
    let b6 := b5 - 4000
    let sq := fdiv (b6 * b6) (2 ^ 12)
    let x3 := fdiv (b2 * sq) (2 ^ 11) + fdiv (ac2 * b6) (2 ^ 11)
    let b3 := fdiv ((4 * ac1 + x3) * 2 ^ oss + 2) 4
    let y3 := fdiv (fdiv (ac3 * b6) (2 ^ 13) + fdiv (b1 * sq) (2 ^ 16) + 2) 4
    let b4 := fdiv (ac4 * (y3 + 32768)) (2 ^ 15)
    let b7 := (up - b3) * fdiv 50000 (2 ^ oss)
    let p := fdiv b7 b4 * 2
    let z1 := fdiv (fdiv (p * p) (2 ^ 16) * 3038) (2 ^ 16)
    let z2 := fdiv (-7357 * p) (2 ^ 16)
    let pc := p + fdiv (z1 + z2 + 3791) (2 ^ 4)
    pseq up b5 ac1 ac2 ac3 ac4 b1 b2 oss =
      if b4 = 0 then .error (.divZero .p12)
      else if p ≤ -3037000500 ∨ 3037000500 ≤ p then .error (.overflow .p13)
      else if pc < -(2 ^ 31) ∨ 2 ^ 31 ≤ pc then .error (.overflow .p15)
      else .ok pc

/-- The bound "|X1| ≤ 131068" that R150 and R170 give for step T1, over all its operands. Expected to FAIL: with
UT = 0 and AC5 = AC6 = 65535 the floor is −131069. No rule's effect depends on it. -/
def Obligations.TemperatureStepOneBoundOfTheSpec : Prop :=
  ∀ ut ac5 ac6 : BitVec 16, ∃ x, stepT1 (zext ut) (zext ac6) (zext ac5) = .ok x ∧ -131068 ≤ x ∧ x ≤ 131068

/-- P13 computes R166's formula and fails exactly when |P| ≥ 3037000500, an inference the spec marks as its own
(R170: "which fails exactly when |P| ≥ 3037000500"). -/
def Obligations.PressureSquareOverflow : Prop :=
  ∀ p : Int,
    ((p ≤ -3037000500 ∨ 3037000500 ≤ p) → stepP13 p = .error (.overflow .p13)) ∧
    (-3037000500 < p → p < 3037000500 →
      stepP13 p = .ok (fdiv (fdiv (p * p) (2 ^ 16) * 3038) (2 ^ 16)))

/-- Two engine steps with the same kind, UT, UP, COEF_RAW, LOSS and, for COMP_P, B5, both fail with the same code
and step and write no result, or both complete and write the same results, whatever else differs. An inference the
spec marks as its own (R171: "[derived: from rules R140 and R149]"). -/
def Obligations.EngineStepIsPure : Prop :=
  ∀ (c d : Scp) (k : CompKind),
    c.eng = .computing k → d.eng = .computing k →
    c.ut = d.ut → c.up = d.up → c.coefRaw = d.coefRaw → c.loss = d.loss → (k = .p → c.b5 = d.b5) →
    (∃ code info, (code = .divZero ∨ code = .overflow) ∧
      (c.engineStep.status.err = code ∧ c.engineStep.status.errInfo = info ∧
        c.engineStep.b5 = c.b5 ∧ c.engineStep.t10 = c.t10 ∧ c.engineStep.pComp = c.pComp) ∧
      (d.engineStep.status.err = code ∧ d.engineStep.status.errInfo = info ∧
        d.engineStep.b5 = d.b5 ∧ d.engineStep.t10 = d.t10 ∧ d.engineStep.pComp = d.pComp)) ∨
    (c.engineStep.status.err = c.status.err ∧ d.engineStep.status.err = d.status.err ∧
      c.engineStep.status.irqDone = true ∧ d.engineStep.status.irqDone = true ∧
      (k = .p → c.engineStep.b5 = c.b5 ∧ d.engineStep.b5 = d.b5) ∧
      (k ≠ .p → c.engineStep.b5 = d.engineStep.b5) ∧
      (k ≠ .p → c.engineStep.t10 = d.engineStep.t10) ∧
      (k ≠ .t → c.engineStep.pComp = d.engineStep.pComp))

/-- Changing MB changes no result: the engine step is the same but for the stored pattern. An inference the spec
marks as its own (R172: "Changing MB changes no result"). -/
def Obligations.MbChangesNoResult : Prop :=
  ∀ (c : Scp) (v : BitVec 16),
    Scp.engineStep { c with coefRaw := c.coefRaw.set 8 v } =
      { c.engineStep with coefRaw := c.coefRaw.set 8 v }

/-- Where COMPENSATE succeeds, COMP_T and its engine step followed by COMP_P and its engine step end in the same
state, whatever LOSS, the flags and the results were before. An inference the spec marks as its own (R148: "the
result equals COMP_T followed by COMP_P with the same inputs"). -/
def Obligations.CompensateEqualsCompTThenCompP : Prop :=
  ∀ (s : State) (b5 t10 pc : Int), s.scp.eng = .idle →
    s.scp.status.calValid = true → s.scp.status.utValid = true → s.scp.status.upValid = true →
    tseq s.scp.ut.toNat s.scp.coefRaw[4].toNat s.scp.coefRaw[5].toNat s.scp.coefRaw[9].toInt
      s.scp.coefRaw[10].toInt = .ok (b5, t10) →
    pseq s.scp.up.toNat b5 s.scp.coefRaw[0].toInt s.scp.coefRaw[1].toInt s.scp.coefRaw[2].toInt
      s.scp.coefRaw[3].toNat s.scp.coefRaw[6].toInt s.scp.coefRaw[7].toInt (s.scp.ctrl.extractLsb' 0 2).toNat = .ok pc →
    ∃ t u v, exec .compensate s = .next t ∧ exec .compT s = .next u ∧
      exec .compP (u.onScp Scp.engineStep) = .next v ∧
      v.onScp Scp.engineStep = t.onScp Scp.engineStep ∧
      (t.onScp Scp.engineStep).scp.b5 = BitVec.ofInt 32 b5 ∧
      (t.onScp Scp.engineStep).scp.t10 = BitVec.ofInt 32 t10 ∧
      (t.onScp Scp.engineStep).scp.pComp = BitVec.ofInt 32 pc

/-! ## Invariants and whole-machine rules -/

/-- Every step from a legal state gives a legal state (`Scp.Legal`: R22, R36, R140, R201, ERR = 0 while BUSY
= 1 by R192 and R206, and R26's and R37's invariants, which the spec marks as its own inferences). -/
def Obligations.LegalStatesAreKept : Prop :=
  ∀ s t : State, s.scp.Legal → Machine.step s = .next t → t.scp.Legal

/-- The reset state is legal. -/
def Obligations.ResetStateIsLegal : Prop := State.reset.scp.Legal ∧ State.reset.scp.B5InRange

/-- From every state whose B5 holds what a temperature path can give, a step keeps it so; and from every such legal
state an engine step of a command completes, or fails by OVERFLOW at step 0x2D or 0x2F or by DIV_ZERO at step 0x12
or 0x2C. Inferences the spec marks as its own (R170: "OVERFLOW can be raised at only two checks"). -/
def Obligations.EngineErrorsAreThoseOfTheRangeFacts : Prop :=
  ∀ s t : State, s.scp.B5InRange → Machine.step s = .next t →
    t.scp.B5InRange ∧
    (s.scp.Legal → (nextTurn s).1 = .engine → (∃ k, s.scp.eng = .computing k) →
      (t.scp.status.err = .noError ∧ t.scp.status.irqDone = true) ∨
      (t.scp.status.err = .overflow ∧ (t.scp.status.errInfo = 0x2D ∨ t.scp.status.errInfo = 0x2F)) ∨
      (t.scp.status.err = .divZero ∧ (t.scp.status.errInfo = 0x12 ∨ t.scp.status.errInfo = 0x2C)))

/-- R106: COEF_RAW changes only by the commit of LOAD_CAL (or reset), and CAL_VALID only by that commit, a failed
LOAD_CAL, CLEAR_CAL, or reset. -/
def Obligations.OnlyTheLoaderWritesTheStore : Prop :=
  ∀ s t : State, Machine.step s = .next t →
    let commits : Prop := (nextTurn s).1 = .stream ∧ s.scp.eng = .loading .cal ∧ s.scp.n.val = 21 ∧
      ∃ b es, s.stream = .byte b :: es
    (t.scp.coefRaw ≠ s.scp.coefRaw → (nextTurn s).1 = .reset ∨ commits) ∧
    (t.scp.status.calValid ≠ s.scp.status.calValid →
      (nextTurn s).1 = .reset ∨ commits ∨
      ((nextTurn s).1 = .stream ∧ s.scp.eng = .loading .cal ∧ ∃ cause es, s.stream = .fail cause :: es) ∨
      ((nextTurn s).1 = .host ∧ s.scp.eng = .idle ∧
        ∃ as, s.host = ⟨.write 0x00000002, 0x04, 4⟩ :: as))

/-- R31: the result registers change only by the engine step of a compute, by a legacy-zero completion, or by
reset. -/
def Obligations.OnlyComputesWriteResults : Prop :=
  ∀ s t : State, Machine.step s = .next t →
    let legacy (w : Word) : Prop := (nextTurn s).1 = .host ∧ s.scp.eng = .idle ∧
      s.scp.status.calValid = false ∧ s.scp.ctrl.getLsbD 8 = true ∧ ∃ as, s.host = ⟨.write w, 0x04, 4⟩ :: as
    (t.scp.b5 ≠ s.scp.b5 → (nextTurn s).1 = .reset ∨
      ((nextTurn s).1 = .engine ∧ (s.scp.eng = .computing .t ∨ s.scp.eng = .computing .tp))) ∧
    (t.scp.t10 ≠ s.scp.t10 → (nextTurn s).1 = .reset ∨
      ((nextTurn s).1 = .engine ∧ (s.scp.eng = .computing .t ∨ s.scp.eng = .computing .tp)) ∨
      legacy 0x00000005 ∨ legacy 0x00000007) ∧
    (t.scp.pComp ≠ s.scp.pComp → (nextTurn s).1 = .reset ∨
      ((nextTurn s).1 = .engine ∧ (s.scp.eng = .computing .p ∨ s.scp.eng = .computing .tp)) ∨
      legacy 0x00000006 ∨ legacy 0x00000007)

/-- R24, R192 and R209: a W1C flag that is set stays set until the host writes 1 to it in STATUS, or a reset. -/
def Obligations.FlagsStayUntilAcknowledged : Prop :=
  ∀ s t : State, Machine.step s = .next t →
    let cleared (bit : Nat) : Prop := (nextTurn s).1 = .reset ∨
      ((nextTurn s).1 = .host ∧ ∃ w as, s.host = ⟨.write w, 0x08, 4⟩ :: as ∧ w.getLsbD bit = true)
    (s.scp.status.wrRej = true → t.scp.status.wrRej = false → cleared 8) ∧
    (s.scp.status.irqDone = true → t.scp.status.irqDone = false → cleared 9) ∧
    (s.scp.status.irqErr = true → t.scp.status.irqErr = false → cleared 10) ∧
    (s.scp.status.strayFail = true → t.scp.status.strayFail = false → cleared 11)

/-- SHADOW's contents beyond the bytes a load in progress has taken are never observed: two machines that differ in
nothing else make the same step, read the same data, and differ in nothing else after it (R36: "unobservable"; R43
is an inference the spec marks as its own). So the value that log 3 chooses for SHADOW at reset is seen by no
run. -/
def Obligations.StaleShadowIsUnobservable : Prop :=
  ∀ (s t : State) (d : Scp), s.scp.SameButStaleShadow d → Machine.step s = .next t →
    ∃ e, Machine.step { s with scp := d } = .next { t with scp := e } ∧ t.scp.SameButStaleShadow e

/-- R245: a compute in progress ends within the turns that are scheduled and one more, unless a reset comes or the
host makes an undefined access. That the engine moves when nothing is scheduled is the model's form of the rule's
weak fairness (log 2). -/
def Obligations.EveryComputeEnds : Prop :=
  ∀ (s : State) (k : CompKind), s.scp.eng = .computing k → s.HostAligned → .reset ∉ s.turns →
    ∃ j t, j ≤ s.turns.length + 1 ∧ Sys2Proof.core.run j s = .next t ∧ t.scp.eng = .idle
end

