-- ==== Sys2Proof/Laws/State.lean ====
section
/-! SUPPORT. One lemma per field per update of the SCP and of the machine, each true by rfl, so that no proof
unfolds a record update. A field that an operation does not list here with a new value is unchanged. -/

namespace Sys2Proof.Machine

/-! ### The machine around the SCP -/

@[simp] theorem State.onScp_scp (s : State) (f : Scp → Scp) : (s.onScp f).scp = f s.scp := rfl
@[simp] theorem State.onScp_turns (s : State) (f : Scp → Scp) : (s.onScp f).turns = s.turns := rfl
@[simp] theorem State.onScp_host (s : State) (f : Scp → Scp) : (s.onScp f).host = s.host := rfl
@[simp] theorem State.onScp_stream (s : State) (f : Scp → Scp) : (s.onScp f).stream = s.stream := rfl
@[simp] theorem State.onScp_readData (s : State) (f : Scp → Scp) : (s.onScp f).readData = s.readData := rfl
@[simp] theorem State.onScp_id (s : State) : s.onScp id = s := rfl
@[simp] theorem State.onScp_onScp (s : State) (f g : Scp → Scp) :
    (s.onScp f).onScp g = s.onScp fun c => g (f c) := rfl

/-! ### `Scp.rejectWrite`: WR_REJ only (R54). -/

@[simp] theorem Scp.rejectWrite_ctrl (c : Scp) : c.rejectWrite.ctrl = c.ctrl := rfl
@[simp] theorem Scp.rejectWrite_status (c : Scp) : c.rejectWrite.status = { c.status with wrRej := true } := rfl
@[simp] theorem Scp.rejectWrite_ut (c : Scp) : c.rejectWrite.ut = c.ut := rfl
@[simp] theorem Scp.rejectWrite_up (c : Scp) : c.rejectWrite.up = c.up := rfl
@[simp] theorem Scp.rejectWrite_b5 (c : Scp) : c.rejectWrite.b5 = c.b5 := rfl
@[simp] theorem Scp.rejectWrite_t10 (c : Scp) : c.rejectWrite.t10 = c.t10 := rfl
@[simp] theorem Scp.rejectWrite_pComp (c : Scp) : c.rejectWrite.pComp = c.pComp := rfl
@[simp] theorem Scp.rejectWrite_coefRaw (c : Scp) : c.rejectWrite.coefRaw = c.coefRaw := rfl
@[simp] theorem Scp.rejectWrite_eng (c : Scp) : c.rejectWrite.eng = c.eng := rfl
@[simp] theorem Scp.rejectWrite_n (c : Scp) : c.rejectWrite.n = c.n := rfl
@[simp] theorem Scp.rejectWrite_shadow (c : Scp) : c.rejectWrite.shadow = c.shadow := rfl
@[simp] theorem Scp.rejectWrite_loss (c : Scp) : c.rejectWrite.loss = c.loss := rfl

/-! ### `Scp.accept`: The error record only (R192). -/

@[simp] theorem Scp.accept_ctrl (c : Scp) : c.accept.ctrl = c.ctrl := rfl
@[simp] theorem Scp.accept_status (c : Scp) :
    c.accept.status = { c.status with err := .noError, errSub := 0, errInfo := 0 } := rfl
@[simp] theorem Scp.accept_ut (c : Scp) : c.accept.ut = c.ut := rfl
@[simp] theorem Scp.accept_up (c : Scp) : c.accept.up = c.up := rfl
@[simp] theorem Scp.accept_b5 (c : Scp) : c.accept.b5 = c.b5 := rfl
@[simp] theorem Scp.accept_t10 (c : Scp) : c.accept.t10 = c.t10 := rfl
@[simp] theorem Scp.accept_pComp (c : Scp) : c.accept.pComp = c.pComp := rfl
@[simp] theorem Scp.accept_coefRaw (c : Scp) : c.accept.coefRaw = c.coefRaw := rfl
@[simp] theorem Scp.accept_eng (c : Scp) : c.accept.eng = c.eng := rfl
@[simp] theorem Scp.accept_n (c : Scp) : c.accept.n = c.n := rfl
@[simp] theorem Scp.accept_shadow (c : Scp) : c.accept.shadow = c.shadow := rfl
@[simp] theorem Scp.accept_loss (c : Scp) : c.accept.loss = c.loss := rfl

/-! ### `Scp.complete`: IRQ_DONE and ENG only (R206). -/

@[simp] theorem Scp.complete_ctrl (c : Scp) : c.complete.ctrl = c.ctrl := rfl
@[simp] theorem Scp.complete_status (c : Scp) : c.complete.status = { c.status with irqDone := true } := rfl
@[simp] theorem Scp.complete_ut (c : Scp) : c.complete.ut = c.ut := rfl
@[simp] theorem Scp.complete_up (c : Scp) : c.complete.up = c.up := rfl
@[simp] theorem Scp.complete_b5 (c : Scp) : c.complete.b5 = c.b5 := rfl
@[simp] theorem Scp.complete_t10 (c : Scp) : c.complete.t10 = c.t10 := rfl
@[simp] theorem Scp.complete_pComp (c : Scp) : c.complete.pComp = c.pComp := rfl
@[simp] theorem Scp.complete_coefRaw (c : Scp) : c.complete.coefRaw = c.coefRaw := rfl
@[simp] theorem Scp.complete_eng (c : Scp) : c.complete.eng = .idle := rfl
@[simp] theorem Scp.complete_n (c : Scp) : c.complete.n = c.n := rfl
@[simp] theorem Scp.complete_shadow (c : Scp) : c.complete.shadow = c.shadow := rfl
@[simp] theorem Scp.complete_loss (c : Scp) : c.complete.loss = c.loss := rfl

/-! ### `Scp.clearB5Valid`: B5_VALID only. -/

@[simp] theorem Scp.clearB5Valid_ctrl (c : Scp) : c.clearB5Valid.ctrl = c.ctrl := rfl
@[simp] theorem Scp.clearB5Valid_status (c : Scp) : c.clearB5Valid.status = { c.status with b5Valid := false } := rfl
@[simp] theorem Scp.clearB5Valid_ut (c : Scp) : c.clearB5Valid.ut = c.ut := rfl
@[simp] theorem Scp.clearB5Valid_up (c : Scp) : c.clearB5Valid.up = c.up := rfl
@[simp] theorem Scp.clearB5Valid_b5 (c : Scp) : c.clearB5Valid.b5 = c.b5 := rfl
@[simp] theorem Scp.clearB5Valid_t10 (c : Scp) : c.clearB5Valid.t10 = c.t10 := rfl
@[simp] theorem Scp.clearB5Valid_pComp (c : Scp) : c.clearB5Valid.pComp = c.pComp := rfl
@[simp] theorem Scp.clearB5Valid_coefRaw (c : Scp) : c.clearB5Valid.coefRaw = c.coefRaw := rfl
@[simp] theorem Scp.clearB5Valid_eng (c : Scp) : c.clearB5Valid.eng = c.eng := rfl
@[simp] theorem Scp.clearB5Valid_n (c : Scp) : c.clearB5Valid.n = c.n := rfl
@[simp] theorem Scp.clearB5Valid_shadow (c : Scp) : c.clearB5Valid.shadow = c.shadow := rfl
@[simp] theorem Scp.clearB5Valid_loss (c : Scp) : c.clearB5Valid.loss = c.loss := rfl

/-! ### `Scp.startLoad`: n and ENG only (R100). -/

@[simp] theorem Scp.startLoad_ctrl (c : Scp) (k : LoadKind) : (c.startLoad k).ctrl = c.ctrl := rfl
@[simp] theorem Scp.startLoad_status (c : Scp) (k : LoadKind) : (c.startLoad k).status = c.status := rfl
@[simp] theorem Scp.startLoad_ut (c : Scp) (k : LoadKind) : (c.startLoad k).ut = c.ut := rfl
@[simp] theorem Scp.startLoad_up (c : Scp) (k : LoadKind) : (c.startLoad k).up = c.up := rfl
@[simp] theorem Scp.startLoad_b5 (c : Scp) (k : LoadKind) : (c.startLoad k).b5 = c.b5 := rfl
@[simp] theorem Scp.startLoad_t10 (c : Scp) (k : LoadKind) : (c.startLoad k).t10 = c.t10 := rfl
@[simp] theorem Scp.startLoad_pComp (c : Scp) (k : LoadKind) : (c.startLoad k).pComp = c.pComp := rfl
@[simp] theorem Scp.startLoad_coefRaw (c : Scp) (k : LoadKind) : (c.startLoad k).coefRaw = c.coefRaw := rfl
@[simp] theorem Scp.startLoad_eng (c : Scp) (k : LoadKind) : (c.startLoad k).eng = .loading k := rfl
@[simp] theorem Scp.startLoad_n (c : Scp) (k : LoadKind) : (c.startLoad k).n = 0 := rfl
@[simp] theorem Scp.startLoad_shadow (c : Scp) (k : LoadKind) : (c.startLoad k).shadow = c.shadow := rfl
@[simp] theorem Scp.startLoad_loss (c : Scp) (k : LoadKind) : (c.startLoad k).loss = c.loss := rfl

/-! ### `Scp.startCompute`: ENG only (R140). -/

@[simp] theorem Scp.startCompute_ctrl (c : Scp) (k : CompKind) : (c.startCompute k).ctrl = c.ctrl := rfl
@[simp] theorem Scp.startCompute_status (c : Scp) (k : CompKind) : (c.startCompute k).status = c.status := rfl
@[simp] theorem Scp.startCompute_ut (c : Scp) (k : CompKind) : (c.startCompute k).ut = c.ut := rfl
@[simp] theorem Scp.startCompute_up (c : Scp) (k : CompKind) : (c.startCompute k).up = c.up := rfl
@[simp] theorem Scp.startCompute_b5 (c : Scp) (k : CompKind) : (c.startCompute k).b5 = c.b5 := rfl
@[simp] theorem Scp.startCompute_t10 (c : Scp) (k : CompKind) : (c.startCompute k).t10 = c.t10 := rfl
@[simp] theorem Scp.startCompute_pComp (c : Scp) (k : CompKind) : (c.startCompute k).pComp = c.pComp := rfl
@[simp] theorem Scp.startCompute_coefRaw (c : Scp) (k : CompKind) : (c.startCompute k).coefRaw = c.coefRaw := rfl
@[simp] theorem Scp.startCompute_eng (c : Scp) (k : CompKind) : (c.startCompute k).eng = .computing k := rfl
@[simp] theorem Scp.startCompute_n (c : Scp) (k : CompKind) : (c.startCompute k).n = c.n := rfl
@[simp] theorem Scp.startCompute_shadow (c : Scp) (k : CompKind) : (c.startCompute k).shadow = c.shadow := rfl
@[simp] theorem Scp.startCompute_loss (c : Scp) (k : CompKind) : (c.startCompute k).loss = c.loss := rfl

/-! ### `Scp.latchOss`: LOSS only (R37). -/

@[simp] theorem Scp.latchOss_ctrl (c : Scp) : c.latchOss.ctrl = c.ctrl := rfl
@[simp] theorem Scp.latchOss_status (c : Scp) : c.latchOss.status = c.status := rfl
@[simp] theorem Scp.latchOss_ut (c : Scp) : c.latchOss.ut = c.ut := rfl
@[simp] theorem Scp.latchOss_up (c : Scp) : c.latchOss.up = c.up := rfl
@[simp] theorem Scp.latchOss_b5 (c : Scp) : c.latchOss.b5 = c.b5 := rfl
@[simp] theorem Scp.latchOss_t10 (c : Scp) : c.latchOss.t10 = c.t10 := rfl
@[simp] theorem Scp.latchOss_pComp (c : Scp) : c.latchOss.pComp = c.pComp := rfl
@[simp] theorem Scp.latchOss_coefRaw (c : Scp) : c.latchOss.coefRaw = c.coefRaw := rfl
@[simp] theorem Scp.latchOss_eng (c : Scp) : c.latchOss.eng = c.eng := rfl
@[simp] theorem Scp.latchOss_n (c : Scp) : c.latchOss.n = c.n := rfl
@[simp] theorem Scp.latchOss_shadow (c : Scp) : c.latchOss.shadow = c.shadow := rfl
@[simp] theorem Scp.latchOss_loss (c : Scp) : c.latchOss.loss = c.oss := rfl

/-! ### `Scp.ackStatus`: The W1C bits only (R195). -/

@[simp] theorem Scp.ackStatus_ctrl (c : Scp) (w : Word) : (c.ackStatus w).ctrl = c.ctrl := rfl
@[simp] theorem Scp.ackStatus_status (c : Scp) (w : Word) : (c.ackStatus w).status = c.status.w1c w := rfl
@[simp] theorem Scp.ackStatus_ut (c : Scp) (w : Word) : (c.ackStatus w).ut = c.ut := rfl
@[simp] theorem Scp.ackStatus_up (c : Scp) (w : Word) : (c.ackStatus w).up = c.up := rfl
@[simp] theorem Scp.ackStatus_b5 (c : Scp) (w : Word) : (c.ackStatus w).b5 = c.b5 := rfl
@[simp] theorem Scp.ackStatus_t10 (c : Scp) (w : Word) : (c.ackStatus w).t10 = c.t10 := rfl
@[simp] theorem Scp.ackStatus_pComp (c : Scp) (w : Word) : (c.ackStatus w).pComp = c.pComp := rfl
@[simp] theorem Scp.ackStatus_coefRaw (c : Scp) (w : Word) : (c.ackStatus w).coefRaw = c.coefRaw := rfl
@[simp] theorem Scp.ackStatus_eng (c : Scp) (w : Word) : (c.ackStatus w).eng = c.eng := rfl
@[simp] theorem Scp.ackStatus_n (c : Scp) (w : Word) : (c.ackStatus w).n = c.n := rfl
@[simp] theorem Scp.ackStatus_shadow (c : Scp) (w : Word) : (c.ackStatus w).shadow = c.shadow := rfl
@[simp] theorem Scp.ackStatus_loss (c : Scp) (w : Word) : (c.ackStatus w).loss = c.loss := rfl

/-! ### `Scp.writeCtrl`: CTRL only (R194). -/

@[simp] theorem Scp.writeCtrl_ctrl (c : Scp) (w : Word) : (c.writeCtrl w).ctrl = w &&& ctrlMask := rfl
@[simp] theorem Scp.writeCtrl_status (c : Scp) (w : Word) : (c.writeCtrl w).status = c.status := rfl
@[simp] theorem Scp.writeCtrl_ut (c : Scp) (w : Word) : (c.writeCtrl w).ut = c.ut := rfl
@[simp] theorem Scp.writeCtrl_up (c : Scp) (w : Word) : (c.writeCtrl w).up = c.up := rfl
@[simp] theorem Scp.writeCtrl_b5 (c : Scp) (w : Word) : (c.writeCtrl w).b5 = c.b5 := rfl
@[simp] theorem Scp.writeCtrl_t10 (c : Scp) (w : Word) : (c.writeCtrl w).t10 = c.t10 := rfl
@[simp] theorem Scp.writeCtrl_pComp (c : Scp) (w : Word) : (c.writeCtrl w).pComp = c.pComp := rfl
@[simp] theorem Scp.writeCtrl_coefRaw (c : Scp) (w : Word) : (c.writeCtrl w).coefRaw = c.coefRaw := rfl
@[simp] theorem Scp.writeCtrl_eng (c : Scp) (w : Word) : (c.writeCtrl w).eng = c.eng := rfl
@[simp] theorem Scp.writeCtrl_n (c : Scp) (w : Word) : (c.writeCtrl w).n = c.n := rfl
@[simp] theorem Scp.writeCtrl_shadow (c : Scp) (w : Word) : (c.writeCtrl w).shadow = c.shadow := rfl
@[simp] theorem Scp.writeCtrl_loss (c : Scp) (w : Word) : (c.writeCtrl w).loss = c.loss := rfl

/-! ### `Scp.writeUt`: UT and UT_VALID only (R126). -/

@[simp] theorem Scp.writeUt_ctrl (c : Scp) (w : Word) : (c.writeUt w).ctrl = c.ctrl := rfl
@[simp] theorem Scp.writeUt_status (c : Scp) (w : Word) :
    (c.writeUt w).status = { c.status with utValid := true } := rfl
@[simp] theorem Scp.writeUt_ut (c : Scp) (w : Word) : (c.writeUt w).ut = w.extractLsb' 0 16 := rfl
@[simp] theorem Scp.writeUt_up (c : Scp) (w : Word) : (c.writeUt w).up = c.up := rfl
@[simp] theorem Scp.writeUt_b5 (c : Scp) (w : Word) : (c.writeUt w).b5 = c.b5 := rfl
@[simp] theorem Scp.writeUt_t10 (c : Scp) (w : Word) : (c.writeUt w).t10 = c.t10 := rfl
@[simp] theorem Scp.writeUt_pComp (c : Scp) (w : Word) : (c.writeUt w).pComp = c.pComp := rfl
@[simp] theorem Scp.writeUt_coefRaw (c : Scp) (w : Word) : (c.writeUt w).coefRaw = c.coefRaw := rfl
@[simp] theorem Scp.writeUt_eng (c : Scp) (w : Word) : (c.writeUt w).eng = c.eng := rfl
@[simp] theorem Scp.writeUt_n (c : Scp) (w : Word) : (c.writeUt w).n = c.n := rfl
@[simp] theorem Scp.writeUt_shadow (c : Scp) (w : Word) : (c.writeUt w).shadow = c.shadow := rfl
@[simp] theorem Scp.writeUt_loss (c : Scp) (w : Word) : (c.writeUt w).loss = c.loss := rfl

/-! ### `Scp.writeUp`: UP and UP_VALID only (R127). -/

@[simp] theorem Scp.writeUp_ctrl (c : Scp) (w : Word) : (c.writeUp w).ctrl = c.ctrl := rfl
@[simp] theorem Scp.writeUp_status (c : Scp) (w : Word) :
    (c.writeUp w).status = { c.status with upValid := true } := rfl
@[simp] theorem Scp.writeUp_ut (c : Scp) (w : Word) : (c.writeUp w).ut = c.ut := rfl
@[simp] theorem Scp.writeUp_up (c : Scp) (w : Word) : (c.writeUp w).up = w.extractLsb' 0 19 := rfl
@[simp] theorem Scp.writeUp_b5 (c : Scp) (w : Word) : (c.writeUp w).b5 = c.b5 := rfl
@[simp] theorem Scp.writeUp_t10 (c : Scp) (w : Word) : (c.writeUp w).t10 = c.t10 := rfl
@[simp] theorem Scp.writeUp_pComp (c : Scp) (w : Word) : (c.writeUp w).pComp = c.pComp := rfl
@[simp] theorem Scp.writeUp_coefRaw (c : Scp) (w : Word) : (c.writeUp w).coefRaw = c.coefRaw := rfl
@[simp] theorem Scp.writeUp_eng (c : Scp) (w : Word) : (c.writeUp w).eng = c.eng := rfl
@[simp] theorem Scp.writeUp_n (c : Scp) (w : Word) : (c.writeUp w).n = c.n := rfl
@[simp] theorem Scp.writeUp_shadow (c : Scp) (w : Word) : (c.writeUp w).shadow = c.shadow := rfl
@[simp] theorem Scp.writeUp_loss (c : Scp) (w : Word) : (c.writeUp w).loss = c.loss := rfl

/-! ### `Scp.strayFailure`: STRAY_FAIL only (R62). -/

@[simp] theorem Scp.strayFailure_ctrl (c : Scp) : c.strayFailure.ctrl = c.ctrl := rfl
@[simp] theorem Scp.strayFailure_status (c : Scp) : c.strayFailure.status = { c.status with strayFail := true } := rfl
@[simp] theorem Scp.strayFailure_ut (c : Scp) : c.strayFailure.ut = c.ut := rfl
@[simp] theorem Scp.strayFailure_up (c : Scp) : c.strayFailure.up = c.up := rfl
@[simp] theorem Scp.strayFailure_b5 (c : Scp) : c.strayFailure.b5 = c.b5 := rfl
@[simp] theorem Scp.strayFailure_t10 (c : Scp) : c.strayFailure.t10 = c.t10 := rfl
@[simp] theorem Scp.strayFailure_pComp (c : Scp) : c.strayFailure.pComp = c.pComp := rfl
@[simp] theorem Scp.strayFailure_coefRaw (c : Scp) : c.strayFailure.coefRaw = c.coefRaw := rfl
@[simp] theorem Scp.strayFailure_eng (c : Scp) : c.strayFailure.eng = c.eng := rfl
@[simp] theorem Scp.strayFailure_n (c : Scp) : c.strayFailure.n = c.n := rfl
@[simp] theorem Scp.strayFailure_shadow (c : Scp) : c.strayFailure.shadow = c.shadow := rfl
@[simp] theorem Scp.strayFailure_loss (c : Scp) : c.strayFailure.loss = c.loss := rfl

/-! ### `Scp.storeByte`: SHADOW only (R36). -/

@[simp] theorem Scp.storeByte_ctrl (c : Scp) (b : Byte) : (c.storeByte b).ctrl = c.ctrl := rfl
@[simp] theorem Scp.storeByte_status (c : Scp) (b : Byte) : (c.storeByte b).status = c.status := rfl
@[simp] theorem Scp.storeByte_ut (c : Scp) (b : Byte) : (c.storeByte b).ut = c.ut := rfl
@[simp] theorem Scp.storeByte_up (c : Scp) (b : Byte) : (c.storeByte b).up = c.up := rfl
@[simp] theorem Scp.storeByte_b5 (c : Scp) (b : Byte) : (c.storeByte b).b5 = c.b5 := rfl
@[simp] theorem Scp.storeByte_t10 (c : Scp) (b : Byte) : (c.storeByte b).t10 = c.t10 := rfl
@[simp] theorem Scp.storeByte_pComp (c : Scp) (b : Byte) : (c.storeByte b).pComp = c.pComp := rfl
@[simp] theorem Scp.storeByte_coefRaw (c : Scp) (b : Byte) : (c.storeByte b).coefRaw = c.coefRaw := rfl
@[simp] theorem Scp.storeByte_eng (c : Scp) (b : Byte) : (c.storeByte b).eng = c.eng := rfl
@[simp] theorem Scp.storeByte_n (c : Scp) (b : Byte) : (c.storeByte b).n = c.n := rfl
@[simp] theorem Scp.storeByte_shadow (c : Scp) (b : Byte) : (c.storeByte b).shadow = c.shadow.set c.n b := rfl
@[simp] theorem Scp.storeByte_loss (c : Scp) (b : Byte) : (c.storeByte b).loss = c.loss := rfl

/-! ### `Scp.countByte`: n only (R36). -/

@[simp] theorem Scp.countByte_ctrl (c : Scp) : c.countByte.ctrl = c.ctrl := rfl
@[simp] theorem Scp.countByte_status (c : Scp) : c.countByte.status = c.status := rfl
@[simp] theorem Scp.countByte_ut (c : Scp) : c.countByte.ut = c.ut := rfl
@[simp] theorem Scp.countByte_up (c : Scp) : c.countByte.up = c.up := rfl
@[simp] theorem Scp.countByte_b5 (c : Scp) : c.countByte.b5 = c.b5 := rfl
@[simp] theorem Scp.countByte_t10 (c : Scp) : c.countByte.t10 = c.t10 := rfl
@[simp] theorem Scp.countByte_pComp (c : Scp) : c.countByte.pComp = c.pComp := rfl
@[simp] theorem Scp.countByte_coefRaw (c : Scp) : c.countByte.coefRaw = c.coefRaw := rfl
@[simp] theorem Scp.countByte_eng (c : Scp) : c.countByte.eng = c.eng := rfl
@[simp] theorem Scp.countByte_n (c : Scp) : c.countByte.n = c.n + 1 := rfl
@[simp] theorem Scp.countByte_shadow (c : Scp) : c.countByte.shadow = c.shadow := rfl
@[simp] theorem Scp.countByte_loss (c : Scp) : c.countByte.loss = c.loss := rfl

/-! ### `Scp.fail`: The error record, IRQ_ERR, T_VALID, P_VALID and ENG only (R205). -/

@[simp] theorem Scp.fail_ctrl (c : Scp) (code : ErrCode) (sub : BitVec 4) (info : BitVec 8) :
    (c.fail code sub info).ctrl = c.ctrl := rfl
@[simp] theorem Scp.fail_status (c : Scp) (code : ErrCode) (sub : BitVec 4) (info : BitVec 8) :
    (c.fail code sub info).status = { c.status with
      err := code
      errSub := sub
      errInfo := info
      irqErr := true
      tValid := if code = .illegalCmd then c.status.tValid else false
      pValid := if code = .illegalCmd then c.status.pValid else false } := rfl
@[simp] theorem Scp.fail_ut (c : Scp) (code : ErrCode) (sub : BitVec 4) (info : BitVec 8) :
    (c.fail code sub info).ut = c.ut := rfl
@[simp] theorem Scp.fail_up (c : Scp) (code : ErrCode) (sub : BitVec 4) (info : BitVec 8) :
    (c.fail code sub info).up = c.up := rfl
@[simp] theorem Scp.fail_b5 (c : Scp) (code : ErrCode) (sub : BitVec 4) (info : BitVec 8) :
    (c.fail code sub info).b5 = c.b5 := rfl
@[simp] theorem Scp.fail_t10 (c : Scp) (code : ErrCode) (sub : BitVec 4) (info : BitVec 8) :
    (c.fail code sub info).t10 = c.t10 := rfl
@[simp] theorem Scp.fail_pComp (c : Scp) (code : ErrCode) (sub : BitVec 4) (info : BitVec 8) :
    (c.fail code sub info).pComp = c.pComp := rfl
@[simp] theorem Scp.fail_coefRaw (c : Scp) (code : ErrCode) (sub : BitVec 4) (info : BitVec 8) :
    (c.fail code sub info).coefRaw = c.coefRaw := rfl
@[simp] theorem Scp.fail_eng (c : Scp) (code : ErrCode) (sub : BitVec 4) (info : BitVec 8) :
    (c.fail code sub info).eng = .idle := rfl
@[simp] theorem Scp.fail_n (c : Scp) (code : ErrCode) (sub : BitVec 4) (info : BitVec 8) :
    (c.fail code sub info).n = c.n := rfl
@[simp] theorem Scp.fail_shadow (c : Scp) (code : ErrCode) (sub : BitVec 4) (info : BitVec 8) :
    (c.fail code sub info).shadow = c.shadow := rfl
@[simp] theorem Scp.fail_loss (c : Scp) (code : ErrCode) (sub : BitVec 4) (info : BitVec 8) :
    (c.fail code sub info).loss = c.loss := rfl

end Sys2Proof.Machine
end

