-- ==== Sys2Proof/Laws/Ops.lean ====
section
/-! SUPPORT. One lemma per shared operation and per agent that says once everything it can do; proofs cite
these and do not unfold the operations. -/

namespace Sys2Proof.Machine

/-! ### BUSY, the checks and the outputs -/

theorem Scp.busy_eq_false (c : Scp) : c.busy = false ↔ c.eng = .idle := by
  simp [Scp.busy]

theorem Scp.busy_eq_true (c : Scp) : c.busy = true ↔ c.eng ≠ .idle := by
  simp [Scp.busy]

theorem Scp.unlessBusy_idle (f : Scp → Scp) (c : Scp) (h : c.eng = .idle) : Scp.unlessBusy f c = f c := by
  simp [Scp.unlessBusy, (Scp.busy_eq_false c).2 h]

theorem Scp.unlessBusy_busy (f : Scp → Scp) (c : Scp) (h : c.eng ≠ .idle) :
    Scp.unlessBusy f c = c.rejectWrite := by
  simp [Scp.unlessBusy, (Scp.busy_eq_true c).2 h]

/-- Everything `unlessBusy` can do. -/
theorem Scp.unlessBusy_cases (f : Scp → Scp) (c : Scp) :
    (c.eng = .idle ∧ Scp.unlessBusy f c = f c) ∨ (c.eng ≠ .idle ∧ Scp.unlessBusy f c = c.rejectWrite) := by
  by_cases h : c.eng = .idle
  · exact .inl ⟨h, Scp.unlessBusy_idle f c h⟩
  · exact .inr ⟨h, Scp.unlessBusy_busy f c h⟩

theorem Scp.sReady_eq_true (c : Scp) : c.sReady = true ↔ ∃ k, c.eng = .loading k := by
  rcases h : c.eng with _ | k | k <;> simp [Scp.sReady, h]

/-! ### Checked arithmetic -/

theorem chk_of_fits {x : Int} (c : StepCode) (h : fits64 x) : chk x c = .ok x := if_pos h

theorem chk_of_not_fits {x : Int} (c : StepCode) (h : ¬ fits64 x) : chk x c = .error (.overflow c) := if_neg h

theorem chk32_of_fits {x : Int} (c : StepCode) (h : fits32 x) : chk32 x c = .ok x := if_pos h

theorem chk32_of_not_fits {x : Int} (c : StepCode) (h : ¬ fits32 x) : chk32 x c = .error (.overflow c) := if_neg h

theorem divChk_zero (a : Int) (c : StepCode) : divChk a 0 c = .error (.divZero c) := if_pos rfl

theorem divChk_of_ne {b : Int} (a : Int) (c : StepCode) (h : b ≠ 0) : divChk a b c = chk (fdiv a b) c := if_neg h

/-- Everything a range check can do. -/
theorem chk_cases (x : Int) (c : StepCode) :
    (fits64 x ∧ chk x c = .ok x) ∨ (¬ fits64 x ∧ chk x c = .error (.overflow c)) := by
  by_cases h : fits64 x
  · exact .inl ⟨h, chk_of_fits c h⟩
  · exact .inr ⟨h, chk_of_not_fits c h⟩

/-! A step that forms several values: "The first check that fails ends the whole command. The steps after it do
not run" (R141). -/

theorem chk_then {β : Type} (x : Int) (c : StepCode) (rest : Int → Except StepFail β) :
    (chk x c >>= rest) = if fits64 x then rest x else .error (.overflow c) := by
  unfold chk
  split <;> rfl

theorem chk32_then {β : Type} (x : Int) (c : StepCode) (rest : Int → Except StepFail β) :
    (chk32 x c >>= rest) = if fits32 x then rest x else .error (.overflow c) := by
  unfold chk32
  split <;> rfl

theorem divChk_then {β : Type} (a b : Int) (c : StepCode) (rest : Int → Except StepFail β) :
    (divChk a b c >>= rest) =
      if b = 0 then .error (.divZero c)
      else if fits64 (fdiv a b) then rest (fdiv a b) else .error (.overflow c) := by
  unfold divChk
  split
  · rfl
  · exact chk_then _ _ _

/-- The temperature sequence, step by step (R149). -/
theorem tseq_of_steps {ut ac5 ac6 mc md x1 x2 b5 t10 : Int} (h1 : stepT1 ut ac6 ac5 = .ok x1)
    (h2 : stepT2 x1 mc md = .ok x2) (h3 : stepT3 x1 x2 = .ok b5) (h4 : stepT4 b5 = .ok t10) :
    tseq ut ac5 ac6 mc md = .ok (b5, t10) := by
  unfold tseq
  rw [h1]
  show (stepT2 x1 mc md >>= _) = _
  rw [h2]
  show (stepT3 x1 x2 >>= _) = _
  rw [h3]
  show (stepT4 b5 >>= _) = _
  rw [h4]
  rfl

/-- A failure at T2 ends the temperature sequence (R141, R149). -/
theorem tseq_of_failed_T2 {ut ac5 ac6 mc md x1 : Int} {e : StepFail} (h1 : stepT1 ut ac6 ac5 = .ok x1)
    (h2 : stepT2 x1 mc md = .error e) : tseq ut ac5 ac6 mc md = .error e := by
  unfold tseq
  rw [h1]
  show (stepT2 x1 mc md >>= _) = _
  rw [h2]
  rfl

/-- Everything the pressure sequence can do once P is known or P1 to P12 have failed (R149). -/
theorem pseq_cases (up b5 ac1 ac2 ac3 ac4 b1 b2 : Int) (oss : Nat) :
    (∃ e, pseqHead up b5 ac1 ac2 ac3 ac4 b1 b2 oss = .error e ∧ pseq up b5 ac1 ac2 ac3 ac4 b1 b2 oss = .error e) ∨
    ∃ p, pseqHead up b5 ac1 ac2 ac3 ac4 b1 b2 oss = .ok p ∧
      pseq up b5 ac1 ac2 ac3 ac4 b1 b2 oss = pseqTail p := by
  unfold pseq
  rcases pseqHead up b5 ac1 ac2 ac3 ac4 b1 b2 oss with e | p
  · exact .inl ⟨e, rfl, rfl⟩
  · exact .inr ⟨p, rfl, rfl⟩

/-- The operands of the temperature sequence: AC5 and AC6 unsigned, MC and MD signed (R142 (b), R144). -/
theorem Scp.runT_eq (c : Scp) :
    c.runT = tseq c.ut.toNat c.coefRaw[4].toNat c.coefRaw[5].toNat c.coefRaw[9].toInt c.coefRaw[10].toInt := rfl

/-- The operands of the pressure sequence: AC4 unsigned, the other coefficients signed (R142 (b), R146). -/
theorem Scp.runP_eq (c : Scp) (b5 : Int) :
    c.runP b5 = pseq c.up.toNat b5 c.coefRaw[0].toInt c.coefRaw[1].toInt c.coefRaw[2].toInt c.coefRaw[3].toNat
      c.coefRaw[6].toInt c.coefRaw[7].toInt c.loss.toNat := rfl

/-! ### Floor division -/

/-- A floor quotient by a positive divisor, as its two bounds (R11). -/
theorem fdiv_bounds (a : Int) {b : Int} (hb : 0 < b) : fdiv a b * b ≤ a ∧ a < fdiv a b * b + b := by
  have h := Int.emod_nonneg a (Int.ne_of_gt hb)
  have h' := Int.emod_lt_of_pos a hb
  have e := Int.mul_ediv_add_emod a b
  have hf : fdiv a b = a / b := Int.fdiv_eq_ediv_of_nonneg a (Int.le_of_lt hb)
  rw [hf, Int.mul_comm]
  omega

/-- A quotient by a positive divisor lies between the bounds of its dividend. -/
theorem fdiv_mem_of_mem {a lo hi b : Int} (hb : 0 < b) (hl : lo * b ≤ a) (hh : a ≤ hi * b) :
    lo ≤ fdiv a b ∧ fdiv a b ≤ hi := by
  obtain ⟨h1, h2⟩ := fdiv_bounds a hb
  constructor
  · by_contra h
    have : (fdiv a b + 1) * b ≤ lo * b := Int.mul_le_mul_of_nonneg_right (by omega) (Int.le_of_lt hb)
    rw [Int.add_mul, Int.one_mul] at this
    omega
  · by_contra h
    have : (hi + 1) * b ≤ fdiv a b * b := Int.mul_le_mul_of_nonneg_right (by omega) (Int.le_of_lt hb)
    rw [Int.add_mul, Int.one_mul] at this
    omega

/-- A quotient by any nonzero divisor is no larger in size than its dividend. -/
theorem fdiv_mem_of_ne {a b m : Int} (hb : b ≠ 0) (hl : -m ≤ a) (hh : a ≤ m) :
    -m ≤ fdiv a b ∧ fdiv a b ≤ m := by
  rcases Int.lt_or_gt_of_ne hb with hneg | hpos
  · have e : fdiv a b = fdiv (-a) (-b) := by
      show Int.fdiv a b = Int.fdiv (-a) (-b)
      rw [Int.neg_fdiv_neg]
    rw [e]
    have hm : 0 ≤ m := by omega
    apply fdiv_mem_of_mem (by omega)
    · nlinarith
    · nlinarith
  · have hm : 0 ≤ m := by omega
    apply fdiv_mem_of_mem hpos
    · nlinarith
    · nlinarith

/-- A product of two values between symmetric bounds. -/
theorem mul_mem_of_mem {a b m n : Int} (ha : -m ≤ a) (ha' : a ≤ m) (hb : -n ≤ b) (hb' : b ≤ n) :
    -(m * n) ≤ a * b ∧ a * b ≤ m * n := by
  constructor <;> nlinarith

/-! ### The agents -/

/-- Everything a turn without a list entry can be (R14). -/
theorem nextTurn_cases (s : State) :
    (s.turns = [] ∧ nextTurn s = (.engine, s)) ∨
    ∃ a ts, s.turns = a :: ts ∧ nextTurn s = (a, { s with turns := ts }) := by
  unfold nextTurn
  split
  · exact .inl ⟨‹_›, rfl⟩
  · exact .inr ⟨_, _, ‹_›, rfl⟩

/-- An engine turn, listed or taken because nothing is listed (R140; log 2). -/
theorem step_engine {s : State} {ts : List Agent} (h : s.turns = .engine :: ts ∨ (s.turns = [] ∧ ts = [])) :
    step s = .next { s with turns := ts, scp := s.scp.engineStep } := by
  rcases s with ⟨scp, turns, host, stream, readData⟩
  rcases h with h | ⟨h, rfl⟩ <;> obtain rfl : turns = _ := h <;> rfl

/-- Taking a turn leaves the SCP, the pending actions and the last read alone. -/
@[simp] theorem nextTurn_scp (s : State) : (nextTurn s).2.scp = s.scp := by
  unfold nextTurn; split <;> rfl

@[simp] theorem nextTurn_host (s : State) : (nextTurn s).2.host = s.host := by
  unfold nextTurn; split <;> rfl

@[simp] theorem nextTurn_stream (s : State) : (nextTurn s).2.stream = s.stream := by
  unfold nextTurn; split <;> rfl

@[simp] theorem nextTurn_readData (s : State) : (nextTurn s).2.readData = s.readData := by
  unfold nextTurn; split <;> rfl

/-- Every instruction answers a next state, and acts on the SCP alone. -/
theorem exec_next (i : Instr) (s : State) : ∃ f : Scp → Scp, exec i s = .next (s.onScp f) := by
  cases i <;> exact ⟨_, rfl⟩

/-- Every register write answers a next state, and acts on the SCP alone. -/
theorem regWrite_next (r : Reg) (w : Word) (s : State) : ∃ f : Scp → Scp, regWrite r w s = .next (s.onScp f) := by
  unfold regWrite
  split
  · exact exec_next (decode w) s
  · exact ⟨_, rfl⟩

/-- Everything a host access can do (R51, R55, R58). -/
theorem hostAccess_cases (a : HostAccess) (s : State) :
    (a.aligned = false ∧ hostAccess a s = .refused .hostAccess) ∨
    (a.aligned = true ∧ a.op = .read ∧
      hostAccess a s = .next { s with readData := some (s.scp.read (regAt a.off)) }) ∨
    (a.aligned = true ∧ ∃ w, a.op = .write w ∧ hostAccess a s = regWrite (regAt a.off) w s) := by
  obtain ⟨op, off, size⟩ := a
  by_cases h : HostAccess.aligned ⟨op, off, size⟩ = true
  · cases op with
    | read => exact .inr (.inl ⟨h, rfl, by simp [hostAccess, h]⟩)
    | write w => exact .inr (.inr ⟨h, w, rfl, by simp [hostAccess, h]⟩)
  · exact .inl ⟨by simpa using h, by simp [hostAccess, h]⟩

/-! ### The window's map (R21), and an aligned access (R50) -/

@[simp] theorem regAt_ctrl : regAt 0x00#8 = .ctrl := by decide
@[simp] theorem regAt_cmd : regAt 0x04#8 = .cmd := by decide
@[simp] theorem regAt_status : regAt 0x08#8 = .status := by decide
@[simp] theorem regAt_ut : regAt 0x0C#8 = .ut := by decide
@[simp] theorem regAt_up : regAt 0x10#8 = .up := by decide
@[simp] theorem regAt_b5 : regAt 0x14#8 = .b5 := by decide
@[simp] theorem regAt_t10 : regAt 0x18#8 = .t10 := by decide
@[simp] theorem regAt_pComp : regAt 0x1C#8 = .pComp := by decide

/-- From 0x14 on the window is read-only or reserved. -/
theorem regAt_readOnly : ∀ off : BitVec 8, off.toNat % 4 = 0 → 0x14 ≤ off.toNat →
    regAt off = .b5 ∨ regAt off = .t10 ∨ regAt off = .pComp ∨ (∃ i, regAt off = .coef i) ∨
      (∃ k, regAt off = .rom k) ∨ regAt off = .reserved := by decide

/-- Only offset 0x04 is CMD, and only 0x08 is STATUS. -/
theorem regAt_eq_cmd : ∀ off : BitVec 8, regAt off = .cmd ↔ off = 0x04 := by decide

theorem regAt_eq_status : ∀ off : BitVec 8, regAt off = .status ↔ off = 0x08 := by decide

theorem HostAccess.aligned_iff (a : HostAccess) : a.aligned = true ↔ a.size = 4 ∧ a.off.toNat % 4 = 0 := by
  simp [HostAccess.aligned]

theorem hostAccess_read (s : State) (off : BitVec 8) (h : off.toNat % 4 = 0) :
    hostAccess ⟨.read, off, 4⟩ s = .next { s with readData := some (s.scp.read (regAt off)) } := by
  simp [hostAccess, HostAccess.aligned, h]

theorem hostAccess_write (s : State) (off : BitVec 8) (w : Word) (h : off.toNat % 4 = 0) :
    hostAccess ⟨.write w, off, 4⟩ s = regWrite (regAt off) w s := by
  simp [hostAccess, HostAccess.aligned, h]

/-- A write of CMD runs the command (R192). -/
theorem regWrite_cmd (w : Word) (s : State) : regWrite .cmd w s = exec (decode w) s := if_pos rfl

/-- A write of any other register acts on the SCP alone (R56). -/
theorem regWrite_of_ne (r : Reg) (w : Word) (s : State) (h : r ≠ .cmd) :
    regWrite r w s = .next (s.onScp (Scp.write r w)) := if_neg h

/-! ### The step -/

/-- Everything a step can do to the SCP: the engine's step, reset, nothing, a stream byte that is taken, a stream
failure, a command, or a write of another register. -/
theorem step_cases {s t : State} (h : step s = .next t) :
    ((nextTurn s).1 = .engine ∧ t.scp = s.scp.engineStep) ∨
    ((nextTurn s).1 = .reset ∧ t.scp = Scp.reset) ∨
    t.scp = s.scp ∨
    ((nextTurn s).1 = .stream ∧ s.scp.sReady = true ∧
      ∃ b es, s.stream = .byte b :: es ∧ t.scp = s.scp.streamByte b) ∨
    ((nextTurn s).1 = .stream ∧ ∃ cause es, s.stream = .fail cause :: es ∧ t.scp = s.scp.streamFail cause) ∨
    ((nextTurn s).1 = .host ∧ ∃ w as, s.host = ⟨.write w, 0x04, 4⟩ :: as ∧
      ∃ u : State, u.scp = s.scp ∧ exec (decode w) u = .next t) ∨
    ((nextTurn s).1 = .host ∧ ∃ off w as, regAt off ≠ .cmd ∧ s.host = ⟨.write w, off, 4⟩ :: as ∧
      t.scp = Scp.write (regAt off) w s.scp) := by
  unfold step at h
  cases ha : (nextTurn s).1 <;> rw [ha] at h
  case host =>
    simp only [agentTurn, hostTurn, nextTurn_host] at h
    split at h
    · simp only [Host.Outcome.next.injEq] at h
      simp [← h]
    next a as hs =>
      obtain ⟨op, off, size⟩ := a
      rcases hostAccess_cases ⟨op, off, size⟩ { (nextTurn s).2 with host := as } with
        ⟨-, e⟩ | ⟨-, -, e⟩ | ⟨h1, w, hw, e⟩ <;> rw [e] at h
      · cases h
      · simp only [Host.Outcome.next.injEq] at h
        simp [← h]
      · obtain ⟨rfl, -⟩ := (HostAccess.aligned_iff _).1 h1
        subst hw
        by_cases hr : regAt off = .cmd
        · obtain rfl := (regAt_eq_cmd off).1 hr
          rw [hr, regWrite_cmd] at h
          simp only [true_and]
          exact .inr (.inr (.inr (.inr (.inr (.inl ⟨w, as, hs, { (nextTurn s).2 with host := as }, by simp, h⟩)))))
        · rw [regWrite_of_ne _ _ _ hr] at h
          simp only [Host.Outcome.next.injEq] at h
          simp only [true_and]
          exact .inr (.inr (.inr (.inr (.inr (.inr ⟨off, w, as, hr, hs, by simp [← h]⟩)))))
  case stream =>
    simp only [agentTurn, Host.Outcome.next.injEq, streamTurn, nextTurn_stream] at h
    split at h
    · simp [← h]
    next b es hs =>
      split at h
      · next hready => simp_all [← h]
      · simp [← h]
    next cause es hs => simp [← h, hs]
  case engine =>
    simp only [agentTurn, Host.Outcome.next.injEq] at h
    simp [← h]
  case reset =>
    simp only [agentTurn, Host.Outcome.next.injEq] at h
    simp [← h, resetTurn]

/-! ### The stream -/

/-- What a stream byte does when it is taken (R61). -/
theorem Scp.streamByte_loading (b : Byte) (c : Scp) (k : LoadKind) (h : c.eng = .loading k) :
    c.streamByte b =
      if c.n.val = k.frameBytes - 1 then (c.storeByte b).commit k else (c.storeByte b).countByte := by
  simp [Scp.streamByte, h]

/-- What a stream failure does (R62). -/
theorem Scp.streamFail_cases (cause : FailCause) (c : Scp) :
    (∃ k, c.eng = .loading k ∧ c.streamFail cause = c.loadFail k cause) ∨
    ((∀ k, c.eng ≠ .loading k) ∧ c.streamFail cause = c.strayFailure) := by
  rcases h : c.eng with _ | k | k <;> simp [Scp.streamFail, h]

end Sys2Proof.Machine
end

