-- ==== Sys2Proof/Laws/PerInstr.lean ====
section
/-! SUPPORT. Facts about every instruction as syntax, one lemma per constructor. -/

/-- The command word of an instruction carries its OP in bits 7:0 and its RSV in bits 31:8 (R80). -/
def Sys2Proof.Laws.WordFields.Statement (i : Sys2Proof.Instr) : Prop :=
  Sys2Proof.opField (Sys2Proof.encode i) = i.op ∧ Sys2Proof.rsvField (Sys2Proof.encode i) = i.rsv

namespace Sys2Proof.Laws.WordFields

/-- The number of a word {rsv, op} (R8, R80). -/
theorem toNat_fields (rsv : BitVec 24) (op : BitVec 8) :
    ((rsv ++ op : BitVec (24 + 8)) : Word).toNat = rsv.toNat * 256 + op.toNat := by
  have h := BitVec.toNat_append rsv op
  rw [← Nat.shiftLeft_add_eq_or_of_lt op.isLt, Nat.shiftLeft_eq] at h
  exact h

/-- The fields of {rsv, op} (R8, R80). -/
theorem fields_of_append (rsv : BitVec 24) (op : BitVec 8) :
    opField (rsv ++ op) = op ∧ rsvField (rsv ++ op) = rsv := by
  have h := toNat_fields rsv op
  have hr := rsv.isLt
  have ho := op.isLt
  constructor <;> apply BitVec.eq_of_toNat_eq
  · rw [opField, BitVec.extractLsb'_toNat, h, Nat.shiftRight_eq_div_pow]
    omega
  · rw [rsvField, BitVec.extractLsb'_toNat, h, Nat.shiftRight_eq_div_pow]
    omega

theorem nop : Statement .nop := fields_of_append _ _
theorem loadCal : Statement .loadCal := fields_of_append _ _
theorem clearCal : Statement .clearCal := fields_of_append _ _
theorem loadUt : Statement .loadUt := fields_of_append _ _
theorem loadUp : Statement .loadUp := fields_of_append _ _
theorem compT : Statement .compT := fields_of_append _ _
theorem compP : Statement .compP := fields_of_append _ _
theorem compensate : Statement .compensate := fields_of_append _ _
theorem illegalOp (op : BitVec 8) : Statement (.illegalOp op) := fields_of_append _ _
theorem illegalRsv (rsv : BitVec 24) (op : BitVec 8) : Statement (.illegalRsv rsv op) := fields_of_append _ _

end Sys2Proof.Laws.WordFields
end

