-- ==== Sys2Proof/Tests/Slice0.lean ====
section
/-! SUPPORT. Small tests. Expected values are the spec's: the words of 30_encoding.md R81 to R83 and the vectors
of 95_test_vectors.md, named in each comment. The last part shows, for every statement with hypotheses, a state
and operands that meet them. -/

namespace Sys2Proof.Tests

open Sys2Proof Sys2Proof.Machine

/-! ## Helpers -/

/-- The next state of an outcome. -/
def nextOf (o : Host.Outcome State Fault Refusal) : Option State :=
  match o with
  | .next s => some s
  | .fault _ => none
  | .refused _ => none

/-- The next STATUS word of an outcome. -/
def statusOf (o : Host.Outcome State Fault Refusal) : Option Word := (nextOf o).map fun s => s.scp.statusWord

/-- A machine holding `c` with nothing scheduled. -/
def machine (c : Scp) : State := { State.reset with scp := c }

/-- A machine holding `c` whose next turn is the stream's, with one event waiting. -/
def streaming (c : Scp) (e : StreamEvent) : State :=
  { State.reset with scp := c, turns := [.stream], stream := [e] }

/-- The coefficients of V-CAL-1. -/
def vcal1 : Vector (BitVec 16) 11 :=
  #v[0x0198, 0xFFB8, 0xC7D1, 0x7FE5, 0x7FF5, 0x5A71, 0x182E, 0x0004, 0x8000, 0xDDF9, 0x0B34]

/-- The frame of V-CAL-1. -/
def vcal1Frame : Vector Byte 22 :=
  #v[0x01, 0x98, 0xFF, 0xB8, 0xC7, 0xD1, 0x7F, 0xE5, 0x7F, 0xF5, 0x5A, 0x71, 0x18, 0x2E, 0x00, 0x04,
     0x80, 0x00, 0xDD, 0xF9, 0x0B, 0x34]

/-- An idle SCP after V-CAL-1 with UT = 27898 and UP = 23843 written by the host, flags cleared. -/
def ready : Scp :=
  { Scp.reset with
    coefRaw := vcal1
    ut := 27898
    up := 23843
    status := { Status.reset with calValid := true, utValid := true, upValid := true } }

/-- `ready` with b5 of V-C-1 computed. -/
def readyP : Scp := { ready with b5 := 2399, status := { ready.status with b5Valid := true } }

/-- A load in progress: the first bytes of V-CAL-1's frame are in SHADOW, `k` of them counted. -/
def loadingAt (kind : LoadKind) (k : Fin 22) : Scp :=
  { Scp.reset with eng := .loading kind, n := k, shadow := vcal1Frame }

/-! ## WellFormed: one ill-formed term for each check, refused -/

theorem test_illegalOp_below_8_is_ill_formed : (Instr.illegalOp 0x07).wellFormed = false := by decide
theorem test_illegalRsv_zero_is_ill_formed : (Instr.illegalRsv 0 0x12).wellFormed = false := by decide
theorem test_illegalOp_8_is_well_formed : (Instr.illegalOp 0x08).wellFormed = true := by decide

/-! ## Decode: words written out bit by bit from {RSV[23:0], OP[7:0]} (R80, R81) -/

theorem test_decode_nop : decode 0b00000000000000000000000000000000 = .nop := by decide
theorem test_decode_loadCal : decode 0b00000000000000000000000000000001 = .loadCal := by decide
theorem test_decode_clearCal : decode 0b00000000000000000000000000000010 = .clearCal := by decide
theorem test_decode_loadUt : decode 0b00000000000000000000000000000011 = .loadUt := by decide
theorem test_decode_loadUp : decode 0b00000000000000000000000000000100 = .loadUp := by decide
theorem test_decode_compT : decode 0b00000000000000000000000000000101 = .compT := by decide
theorem test_decode_compP : decode 0b00000000000000000000000000000110 = .compP := by decide
theorem test_decode_compensate : decode 0b00000000000000000000000000000111 = .compensate := by decide
theorem test_decode_illegalOp : decode 0b00000000000000000000000010100101 = .illegalOp 0xA5 := by decide
theorem test_decode_illegalRsv :
    decode 0b10000000000000000000000100001000 = .illegalRsv 0x800001 0x08 := by decide

/-- 0x00000100 is not a NOP (R191). -/
theorem test_decode_reserved_before_op : decode 0x00000100 = .illegalRsv 1 0 := by decide

theorem test_decodeTableWord_loadUp : decodeTableWord 32 4 = some .loadUp := by decide
theorem test_decodeTableWord_refuses_longer : decodeTableWord 40 4 = none := by decide

/-! ## Commands -/

/-- V-CTL-1. -/
theorem test_nop_keeps_status : statusOf (exec .nop (machine
    { Scp.reset with status := { Status.reset with calValid := true, irqErr := true, err := .busError } })) =
    some 0x00010402 := by decide

/-- V-CTL-5: a command while a load waits is rejected. -/
theorem test_compT_rejected_while_busy :
    statusOf (exec .compT (machine (loadingAt .cal 0))) = some 0x00000101 := by decide

/-- V-CTL-7. -/
theorem test_illegalOp_8 : statusOf (exec (.illegalOp 0x08) State.reset) = some 0x08070400 := by decide

/-- V-CTL-12: the results stay valid. -/
theorem test_illegalOp_keeps_results : statusOf (exec (.illegalOp 0x0A) (machine { ready with status :=
    { ready.status with b5Valid := true, tValid := true, pValid := true, irqDone := true } })) =
    some 0x0A07067E := by decide

/-- V-CTL-9. -/
theorem test_illegalRsv_100 : statusOf (exec (.illegalRsv 1 0x00) State.reset) = some 0x00170400 := by decide

/-- V-CTL-11. -/
theorem test_illegalRsv_all_ones :
    statusOf (exec (.illegalRsv 0xFFFFFF 0xFF) State.reset) = some 0xFF170400 := by decide

/-- V-CAL-1. -/
theorem test_loadCal_starts : statusOf (exec .loadCal State.reset) = some 0x00000001 := by decide

/-- V-CAL-6: a reload clears B5_VALID only. -/
theorem test_loadCal_clears_b5Valid : statusOf (exec .loadCal (machine { ready with status :=
    { ready.status with b5Valid := true, tValid := true, pValid := true, irqDone := true } })) =
    some 0x0000026F := by decide

/-- V-CAL-7. -/
theorem test_clearCal : statusOf (exec .clearCal (machine { ready with status :=
    { ready.status with b5Valid := true, tValid := true, pValid := true, irqDone := true } })) =
    some 0x0000026C := by decide

/-- V-ERR-14: acceptance clears the error. -/
theorem test_loadUt_clears_error : statusOf (exec .loadUt (machine
    { Scp.reset with status := { Status.reset with err := .uncalibrated } })) = some 0x00000001 := by decide

/-- R123: LOSS = 3 with CTRL.OSS = 3. -/
theorem test_loadUp_latches_oss :
    (nextOf (exec .loadUp (machine { Scp.reset with ctrl := 3 }))).map (fun s => s.scp.loss) = some 3 := by decide

/-- V-ERR-1. -/
theorem test_compT_uncalibrated : statusOf (exec .compT State.reset) = some 0x00020400 := by decide

/-- V-ERR-7: legacy zero. -/
theorem test_compT_legacyZero :
    statusOf (exec .compT (machine { Scp.reset with ctrl := 0x100 })) = some 0x00120220 := by decide

/-- V-ERR-3: NO_RAW of UP comes before NO_B5. -/
theorem test_compP_noRaw : statusOf (exec .compP (machine { Scp.reset with status :=
    { Status.reset with calValid := true, irqDone := true } })) = some 0x00130602 := by decide

/-- V-C-22: NO_B5. -/
theorem test_compP_noB5 : statusOf (exec .compP (machine { Scp.reset with status :=
    { Status.reset with calValid := true, upValid := true, irqDone := true } })) = some 0x0004060A := by decide

/-- V-ERR-5: UT is checked before UP. -/
theorem test_compensate_noRaw_ut : statusOf (exec .compensate (machine { Scp.reset with status :=
    { Status.reset with calValid := true, upValid := true, irqDone := true } })) = some 0x0003060A := by decide

/-- V-ERR-6: legacy zero of both results. -/
theorem test_compensate_legacyZero :
    statusOf (exec .compensate (machine { Scp.reset with ctrl := 0x100 })) = some 0x00120260 := by decide

/-! ## Loads -/

/-- V-CAL-1: the 22nd byte commits. -/
theorem test_loadCal_commit :
    (nextOf (Machine.step (streaming (loadingAt .cal 21) (.byte 0x34)))).map
      (fun s => (s.scp.coefRaw, s.scp.statusWord)) = some (vcal1, 0x00000202) := by decide

/-- V-SRC-7: a short read after 5 bytes. -/
theorem test_loadCal_short_read :
    statusOf (Machine.step (streaming (loadingAt .cal 5) (.fail .shortRead))) = some 0x05110400 := by decide

/-- V-RAW-1: bytes 6C FA. -/
theorem test_loadUt_commit :
    (nextOf (Machine.step (streaming { loadingAt .ut 1 with shadow := vcal1Frame.set 0 0x6C } (.byte 0xFA)))).map
      (fun s => (s.scp.ut, s.scp.statusWord)) = some (27898, 0x00000204) := by decide

/-- V-RAW-4: a transport failure after one byte. -/
theorem test_loadUt_failure :
    statusOf (Machine.step (streaming (loadingAt .ut 1) (.fail .transport))) = some 0x01010400 := by decide

/-- V-RAW-8: bytes 5D 23 00 at oss 3. -/
theorem test_loadUp_commit_oss3 :
    (nextOf (Machine.step (streaming { loadingAt .up 2 with
      shadow := (vcal1Frame.set 0 0x5D).set 1 0x23, loss := 3 } (.byte 0x00)))).map
      (fun s => (s.scp.up, s.scp.statusWord)) = some (190744, 0x00000208) := by decide

/-- V-RAW-9: bytes FF FF FF at oss 1. -/
theorem test_upFrame_full_scale : upFrame 0xFF 0xFF 0xFF 1 = 131071 := by decide

/-- V-CAL-5: a failure outside a load. -/
theorem test_stray_failure : statusOf (Machine.step (streaming { Scp.reset with status :=
    { Status.reset with calValid := true, irqDone := true } } (.fail .transport))) = some 0x00000A02 := by decide

/-- R61: a byte waits at the transport while s_ready = 0. -/
theorem test_byte_waits : (nextOf (Machine.step (streaming Scp.reset (.byte 0x5D)))).map
    (fun s => (s.scp, s.stream)) = some (Scp.reset, [.byte 0x5D]) := by decide

/-! ## The window -/

/-- V-CTL-3. -/
theorem test_ctrl_write : (nextOf (hostAccess ⟨.write 0xFFFFFFFF, 0x00, 4⟩ State.reset)).map
    (fun s => s.scp.read .ctrl) = some 0x00000133 := by decide

/-- V-CTL-13. -/
theorem test_status_w1c : statusOf (hostAccess ⟨.write 0x00000500, 0x08, 4⟩ (machine { Scp.reset with status :=
    { Status.reset with wrRej := true, irqDone := true, irqErr := true, strayFail := true } })) =
    some 0x00000A00 := by decide

/-- V-RAW-11: bits 31:16 are dropped. -/
theorem test_ut_write : (nextOf (hostAccess ⟨.write 0x00016CFA, 0x0C, 4⟩ State.reset)).map
    (fun s => (s.scp.ut, s.scp.statusWord)) = some (27898, 0x00000004) := by decide

/-- V-RAW-12. -/
theorem test_up_write : (nextOf (hostAccess ⟨.write 0xFFFFFFFF, 0x10, 4⟩ State.reset)).map
    (fun s => s.scp.read .up) = some 524287 := by decide

/-- R193's example: AC2 reads 0xFFFFFFB8, AC4 reads 0x00007FE5. -/
theorem test_coef_reads : (ready.read (regAt 0x24), ready.read (regAt 0x2C)) = (0xFFFFFFB8, 0x00007FE5) := by
  decide

/-- V-CTL-18: ROM_7. -/
theorem test_rom_read : Scp.reset.read (regAt 0x9C) = 0xFFFFE343 := by decide

/-- R51: a half-word access has no step. -/
theorem test_halfword_refused : nextOf (hostAccess ⟨.read, 0x00, 2⟩ State.reset) = none := by decide

/-- V-CTL-15: irq rises when IE_DONE is set while IRQ_DONE = 1. -/
theorem test_irq_follows_enable : (nextOf (hostAccess ⟨.write 0x10, 0x00, 4⟩ (machine { Scp.reset with status :=
    { Status.reset with irqDone := true } }))).map (fun s => s.scp.irq) = some true := by decide

/-! ## The engine -/

/-- R142 (c). -/
theorem test_fdiv_signs : (fdiv 7 2, fdiv (-7) 2, fdiv 7 (-2), fdiv (-7) (-2)) = (3, -4, -4, 3) := by decide

/-- R11's example. -/
theorem test_fdiv_is_not_truncation : fdiv (-17840128) 7611 = -2344 := by decide

/-- V-C-17, COMP_T's engine step. -/
theorem test_engine_compT :
    let c := Scp.engineStep { ready with eng := .computing .t }
    (c.b5, c.t10, c.statusWord) = (0x0000095F, 0x00000096, 0x0000023E) := by decide

/-- V-C-1 by the two-command route (V-C-17), COMP_P's engine step. -/
theorem test_engine_compP :
    let c := Scp.engineStep { readyP with eng := .computing .p }
    (c.pComp, c.eng, c.status.pValid) = (0x0001114C, .idle, true) := by decide

/-- V-C-1. -/
theorem test_engine_compensate :
    let c := Scp.engineStep { ready with eng := .computing .tp }
    (c.b5, c.t10, c.pComp, c.statusWord) = (0x0000095F, 0x00000096, 0x0001114C, 0x0000027E) := by decide

/-- V-C-2: oss 1. -/
theorem test_engine_compensate_oss1 :
    (Scp.engineStep { ready with eng := .computing .tp, up := 47686, loss := 1 }).pComp = 69962 := by decide

/-- V-C-5: UT = 0, floors of negative numbers. -/
theorem test_engine_negative :
    let c := Scp.engineStep { ready with eng := .computing .tp, ut := 0 }
    (c.b5, c.t10, c.pComp) = (0xFFFFA905, 0xFFFFFA90, 0x0000BB42) := by decide

/-- V-C-10: a negative B4 and a negative B7. -/
theorem test_engine_negative_divisor :
    let c := Scp.engineStep { ready with
      eng := .computing .tp, ut := 23153,
      coefRaw := ((vcal1.set 6 0x8000).set 9 0x8000).set 10 0x0001 }
    (c.b5, c.t10, c.pComp) = (0xFC000000, 0xFFC00000, 0x00000270) := by decide

/-- V-C-11: DIV_ZERO at T2. -/
theorem test_engine_divZero_t2 :
    (Scp.engineStep { ready with eng := .computing .tp, ut := 23153, coefRaw := vcal1.set 10 0 }).statusWord =
      0x1205040E := by decide

/-- V-C-13: DIV_ZERO at P12. -/
theorem test_engine_divZero_p12 :
    (Scp.engineStep { ready with eng := .computing .tp, coefRaw := vcal1.set 3 0 }).statusWord = 0x2C05040E := by
  decide

/-- V-C-14: the result leaves 32 bits at P15. -/
theorem test_engine_overflow_p15 :
    (Scp.engineStep { ready with eng := .computing .tp, coefRaw := vcal1.set 3 1 }).statusWord = 0x2F06040E := by
  decide

/-- V-C-15: P·P leaves 64 bits at P13. -/
theorem test_engine_overflow_p13 :
    (Scp.engineStep { ready with eng := .computing .tp, up := 65535, coefRaw := vcal1.set 3 1 }).statusWord =
      0x2D06040E := by decide

/-! ## Steps and reset -/

/-- A command written next runs in the next step, also from reset: V-CAL-1's first line. -/
theorem test_withFetchWord : statusOf (Machine.step (State.reset.withFetchWord 32 1)) = some 0x00000001 := by decide

/-- V-RST-1: reset in the middle of a load. -/
theorem test_reset_turn : (nextOf (Machine.step { machine (loadingAt .cal 7) with turns := [.reset] })).map
    (fun s => s.scp.statusWord) = some 0x00000000 := by decide

/-! ## Witnesses: a state and operands that meet the hypotheses of each statement, clause by clause -/

/-- A machine holding `c`, the host about to perform `a`. -/
def hosting (c : Scp) (a : HostAccess) : State :=
  { State.reset with scp := c, turns := [.host], host := [a] }

/-- A machine holding `c`, the engine about to move. -/
def engineNext (c : Scp) : State := { State.reset with scp := c, turns := [.engine] }

/-- An SCP with legacy zero on. -/
def legacy : Scp := { Scp.reset with ctrl := 0x100 }

/-- An SCP with the store loaded and these raw and b5 valid bits. -/
def loaded (ut up b5 : Bool) : Scp :=
  { Scp.reset with status := { Status.reset with calValid := true, utValid := ut, upValid := up, b5Valid := b5 } }

theorem witness_DecodeEncodeRoundTrip :
    (Instr.illegalOp 0x08).WellFormed ∧ (Instr.illegalOp 0xFF).WellFormed ∧ (Instr.illegalRsv 1 0).WellFormed ∧
      (Instr.illegalRsv 0xFFFFFF 0xFF).WellFormed ∧ Instr.nop.WellFormed := by
  simp [Instr.WellFormed]

theorem witness_StepRunsTheDecodedCommand :
    (hosting Scp.reset (cmdAccess 1)).turns = .host :: [] ∧
      (hosting Scp.reset (cmdAccess 1)).host = cmdAccess 1 :: [] ∧ (Instr.illegalOp 0x08).WellFormed := by
  simp [hosting, Instr.WellFormed]

theorem witness_StepStopsOnlyOnBadAccess :
    nextOf (Machine.step State.reset) = some State.reset ∧
      nextOf (Machine.step (hosting Scp.reset ⟨.read, 0x02, 4⟩)) = none ∧
      (hosting Scp.reset ⟨.read, 0xFC, 4⟩).turns = [.host] := by decide

/-- NopChangesNothing: an idle state and a busy one. -/
theorem witness_NopChangesNothing :
    State.reset.scp.eng = .idle ∧ (machine (loadingAt .cal 0)).scp.eng ≠ .idle := by decide

theorem witness_IllegalWordRecordsIllegalCmd :
    State.reset.scp.eng = .idle ∧ 8 ≤ (0x08 : BitVec 8).toNat ∧ 8 ≤ (0xFF : BitVec 8).toNat ∧
      (1 : BitVec 24) ≠ 0 := by decide

/-- LoadCalStartsALoad, ClearCalEmptiesTheStore, LoadUtStartsALoad, LoadUpLatchesOssAndStartsALoad and
RawRegisterWrites. -/
theorem witness_idle_commands : State.reset.scp.eng = .idle ∧ (machine readyP).scp.eng = .idle := by decide

theorem witness_CompTIssue :
    (legacy.eng = .idle ∧ legacy.status.calValid = false ∧ legacy.ctrl.getLsbD 8 = true) ∧
    (Scp.reset.eng = .idle ∧ Scp.reset.status.calValid = false ∧ Scp.reset.ctrl.getLsbD 8 = false) ∧
    ((loaded false true true).eng = .idle ∧ (loaded false true true).status.calValid = true ∧
      (loaded false true true).status.utValid = false) ∧
    (ready.eng = .idle ∧ ready.status.calValid = true ∧ ready.status.utValid = true) := by decide

/-- CompPIssue; its first two clauses have the states of `witness_CompTIssue`. -/
theorem witness_CompPIssue :
    ((loaded true false true).status.calValid = true ∧ (loaded true false true).status.upValid = false) ∧
    ((loaded true true false).status.calValid = true ∧ (loaded true true false).status.upValid = true ∧
      (loaded true true false).status.b5Valid = false) ∧
    (readyP.eng = .idle ∧ readyP.status.calValid = true ∧ readyP.status.upValid = true ∧
      readyP.status.b5Valid = true) := by decide

/-- CompensateIssue; its first two clauses have the states of `witness_CompTIssue`. -/
theorem witness_CompensateIssue :
    ((loaded false false false).status.calValid = true ∧ (loaded false false false).status.utValid = false) ∧
    ((loaded true false false).status.calValid = true ∧ (loaded true false false).status.utValid = true ∧
      (loaded true false false).status.upValid = false) ∧
    (ready.eng = .idle ∧ ready.status.calValid = true ∧ ready.status.utValid = true ∧
      ready.status.upValid = true) := by decide

/-- BusyRejectsEveryCommand and BusyRejectsRegisterWrites: a load and a compute in progress. -/
theorem witness_busy :
    (machine (loadingAt .ut 1)).scp.eng ≠ .idle ∧
      (machine { ready with eng := .computing .tp }).scp.eng ≠ .idle ∧
      (0x14 : BitVec 8).toNat % 4 = 0 ∧ 0x14 ≤ (0x14 : BitVec 8).toNat ∧ (0xFC : BitVec 8).toNat % 4 = 0 := by decide

/-- OnlyLoadsAndComputesMakeBusy: a command that makes BUSY 1, and one that does not. -/
theorem witness_OnlyLoadsAndComputesMakeBusy :
    State.reset.scp.eng = .idle ∧
      (nextOf (exec .loadUt State.reset)).map (fun t => t.scp.eng) = some (.loading .ut) ∧
      (nextOf (exec .clearCal State.reset)).map (fun t => t.scp.eng) = some .idle := by decide

/-- StreamByteIsTakenOrWaits: not ready (idle and computing), and the first and the last but one byte of a load. -/
theorem witness_StreamByteIsTakenOrWaits :
    (streaming Scp.reset (.byte 0)).turns = [.stream] ∧ (streaming Scp.reset (.byte 0)).stream = [.byte 0] ∧
      (∀ k, Scp.reset.eng ≠ .loading k) ∧ (∀ k, ({ ready with eng := .computing .t } : Scp).eng ≠ .loading k) ∧
      (loadingAt .cal 0).eng = .loading .cal ∧ (loadingAt .cal 0).n.val + 1 < LoadKind.cal.frameBytes ∧
      (loadingAt .cal 20).n.val + 1 < LoadKind.cal.frameBytes ∧
      (loadingAt .ut 0).n.val + 1 < LoadKind.ut.frameBytes ∧
      (loadingAt .up 1).n.val + 1 < LoadKind.up.frameBytes := by
  refine ⟨rfl, rfl, ?_, ?_, rfl, by decide, by decide, by decide, by decide⟩ <;> intro k <;> cases k <;> decide

/-- LoadCalCommit, LoadUtCommit and LoadUpCommit. -/
theorem witness_commits :
    ((streaming (loadingAt .cal 21) (.byte 0x34)).stream = [.byte 0x34] ∧
      (loadingAt .cal 21).eng = .loading .cal ∧ (loadingAt .cal 21).n.val = 21) ∧
    ((loadingAt .ut 1).eng = .loading .ut ∧ (loadingAt .ut 1).n.val = 1) ∧
    ((loadingAt .up 2).eng = .loading .up ∧ (loadingAt .up 2).n.val = 2) := by decide

/-- LoadCalFailure, RawLoadFailure (both clauses) and StrayFailureSetsItsBitOnly. -/
theorem witness_failures :
    (streaming (loadingAt .cal 0) (.fail .transport)).turns = [.stream] ∧
    (streaming (loadingAt .cal 21) (.fail .shortRead)).stream = [.fail .shortRead] ∧
    (loadingAt .cal 21).eng = .loading .cal ∧ (loadingAt .ut 1).eng = .loading .ut ∧
    (loadingAt .up 2).eng = .loading .up ∧ (∀ k, Scp.reset.eng ≠ .loading k) := by
  refine ⟨rfl, rfl, rfl, rfl, rfl, ?_⟩
  intro k
  cases k <;> decide

/-- RegisterMap, HostReadsHaveNoSideEffects, ReadValues and ReadOnlyWritesAreIgnored: boundary offsets. -/
theorem witness_offsets :
    (0x00 : BitVec 8).toNat % 4 = 0 ∧ (0x4C : BitVec 8).toNat % 4 = 0 ∧ (0x7C : BitVec 8).toNat ≤ 0x7C ∧
      0xA4 ≤ (0xA4 : BitVec 8).toNat ∧ (0xFC : BitVec 8).toNat % 4 = 0 ∧ 0xA4 ≤ (0xFC : BitVec 8).toNat ∧
      (0x14 : BitVec 8).toNat % 4 = 0 := by decide

/-- CtrlWriteIsMaskedAndReadsBack: both clauses. -/
theorem witness_CtrlWriteIsMaskedAndReadsBack :
    State.reset.scp.eng = .idle ∧ (machine (loadingAt .up 0)).scp.eng ≠ .idle := by decide

theorem witness_OnlyAlignedWordsReachTheWindow :
    ¬ ((⟨.read, 0x00, 2⟩ : HostAccess).size = 4 ∧ (⟨.read, 0x00, 2⟩ : HostAccess).off.toNat % 4 = 0) ∧
      ¬ ((⟨.read, 0x06, 4⟩ : HostAccess).size = 4 ∧ (⟨.read, 0x06, 4⟩ : HostAccess).off.toNat % 4 = 0) ∧
      Config.scpBase + 256 ≤ Config.scpBase + 256 := by
  refine ⟨by decide, by decide, Nat.le_refl _⟩

theorem witness_ResetTurnRestoresResetValues :
    ({ machine (loadingAt .cal 7) with turns := [.reset] } : State).turns = .reset :: [] := rfl

/-- FloorDivision: both signs of the divisor. -/
theorem witness_FloorDivision : (0 : Int) < 7611 ∧ (-137312611645 : Int) < 0 := by decide

/-- EngineStepsOnlyWhileComputing: both kinds of turn, both clauses. -/
theorem witness_EngineStepsOnlyWhileComputing :
    (engineNext Scp.reset).turns = [.engine] ∧ (machine Scp.reset).turns = [] ∧ (∀ k, Scp.reset.eng ≠ .computing k) ∧
      ({ ready with eng := .computing .t } : Scp).eng = .computing .t := by
  refine ⟨rfl, rfl, ?_, rfl⟩
  intro k
  cases k <;> decide

/-- CompTEngineStep: V-C-1 and V-C-11, on a listed engine turn and with no turn listed. -/
theorem witness_CompTEngineStep :
    (engineNext { ready with eng := .computing .t }).turns = [.engine] ∧
      (machine { ready with eng := .computing .t }).turns = [] ∧
      (machine { ready with eng := .computing .t }).scp.eng = .computing .t ∧
      tseq ready.ut.toNat ready.coefRaw[4].toNat ready.coefRaw[5].toNat ready.coefRaw[9].toInt
        ready.coefRaw[10].toInt = .ok (2399, 150) ∧
      tseq (23153#16).toNat (vcal1.set 10 0)[4].toNat (vcal1.set 10 0)[5].toNat (vcal1.set 10 0)[9].toInt
        (vcal1.set 10 0)[10].toInt = .error (.divZero .t2) := ⟨rfl, rfl, rfl, rfl, rfl⟩

/-- What CompPEngineStep's hypotheses compute, for these readings and coefficients, at b5 = 2399 and LOSS = 0. -/
def pressureOf (up : BitVec 19) (v : Vector (BitVec 16) 11) : Except StepFail Int :=
  pseq up.toNat (2399#32).toInt v[0].toInt v[1].toInt v[2].toInt v[3].toNat v[6].toInt v[7].toInt (0#2).toNat

/-- CompPEngineStep: V-C-1, V-C-13, V-C-14 and V-C-15. -/
theorem witness_CompPEngineStep :
    (engineNext { readyP with eng := .computing .p }).scp.eng = .computing .p ∧
      (readyP.up = 23843 ∧ readyP.b5 = 2399#32 ∧ readyP.coefRaw = vcal1 ∧ readyP.loss = 0#2) ∧
      pressureOf 23843 vcal1 = .ok 69964 ∧
      pressureOf 23843 (vcal1.set 3 0) = .error (.divZero .p12) ∧
      pressureOf 23843 (vcal1.set 3 1) = .error (.overflow .p15) ∧
      pressureOf 65535 (vcal1.set 3 1) = .error (.overflow .p13) :=
  ⟨rfl, ⟨rfl, rfl, rfl, rfl⟩, rfl, rfl, rfl, rfl⟩

/-- CompensateEngineStep: success, a failure of the temperature part (its sequence has the operands of
`witness_CompTEngineStep`), and one of the pressure part (with those of `witness_CompPEngineStep`: MC, MD, AC5 and
AC6 are the same, so b5 is 2399). -/
theorem witness_CompensateEngineStep :
    (engineNext { ready with eng := .computing .tp }).scp.eng = .computing .tp ∧
      tseq ready.ut.toNat (vcal1.set 3 0)[4].toNat (vcal1.set 3 0)[5].toNat (vcal1.set 3 0)[9].toInt
        (vcal1.set 3 0)[10].toInt = .ok (2399, 150) ∧
      pressureOf ready.up ready.coefRaw = .ok 69964 ∧
      pressureOf ready.up (vcal1.set 3 0) = .error (.divZero .p12) := ⟨rfl, rfl, rfl, rfl⟩

/-- TemperatureSequence: the operands of V-C-11 (zero divisor) and of V-C-10 (the largest b5 of the vectors). -/
theorem witness_TemperatureSequence :
    fdiv ((23153 - 23153) * 32757) (2 ^ 15) + 0 = 0 ∧ fdiv ((23153 - 23153) * 32757) (2 ^ 15) + 1 ≠ 0 ∧
      tseq 23153 32757 23153 (-32768) 1 = .ok (-67108864, -4194304) := ⟨rfl, by decide, rfl⟩

/-- PressureSequence: operands at the ends of their ranges, and the four outcomes on V-C-1, V-C-13, V-C-15 and
V-C-14. -/
theorem witness_PressureSequence :
    ((0 : Int) ≤ 524287 ∧ (524287 : Int) < 2 ^ 19 ∧ (-67239932 : Int) ≤ -67108864 ∧ -(2 ^ 15) ≤ (-32768 : Int) ∧
      (65535 : Int) < 2 ^ 16) ∧
    pseq 23843 2399 408 (-72) (-14383) 32741 6190 4 0 = .ok 69964 ∧
    pseq 23843 2399 408 (-72) (-14383) 0 6190 4 0 = .error (.divZero .p12) ∧
    pseq 65535 2399 408 (-72) (-14383) 1 6190 4 0 = .error (.overflow .p13) ∧
    pseq 23843 2399 408 (-72) (-14383) 1 6190 4 0 = .error (.overflow .p15) :=
  ⟨by decide, rfl, rfl, rfl, rfl⟩

/-- PressureSquareOverflow: both sides of the boundary, at both signs. -/
theorem witness_PressureSquareOverflow :
    (-3037000500 : Int) ≤ -3037000500 ∧ (3037000500 : Int) ≤ 3037000500 ∧
      (-3037000500 : Int) < -3037000499 ∧ (3037000499 : Int) < 3037000500 := by decide

/-- EngineStepIsPure: two SCPs at COMP_P that differ in CTRL and P_COMP only, and two at COMP_T that differ in B5. -/
theorem witness_EngineStepIsPure :
    let c : Scp := { readyP with eng := .computing .p }
    let d : Scp := { c with ctrl := 0x30, pComp := 7 }
    c.eng = .computing .p ∧ d.eng = .computing .p ∧ c.ut = d.ut ∧ c.up = d.up ∧ c.coefRaw = d.coefRaw ∧
      c.loss = d.loss ∧ c.b5 = d.b5 ∧ c ≠ d ∧
      ({ c with eng := .computing .t, b5 := 7 } : Scp).b5 ≠ c.b5 := by decide

theorem witness_CompensateEqualsCompTThenCompP :
    (machine ready).scp.eng = .idle ∧ (machine ready).scp.status.calValid = true ∧
      (machine ready).scp.status.utValid = true ∧ (machine ready).scp.status.upValid = true ∧
      tseq ready.ut.toNat ready.coefRaw[4].toNat ready.coefRaw[5].toNat ready.coefRaw[9].toInt
        ready.coefRaw[10].toInt = .ok (2399, 150) ∧
      (ready.ctrl.extractLsb' 0 2).toNat = (0#2).toNat ∧ pressureOf ready.up ready.coefRaw = .ok 69964 :=
  ⟨rfl, rfl, rfl, rfl, rfl, rfl, rfl⟩

/-- A legal SCP with COMP_P accepted and not yet run. -/
theorem legal_computing (up : BitVec 19) (v : Vector (BitVec 16) 11) :
    Scp.Legal { readyP with eng := .computing .p, up := up, coefRaw := v } where
  ctrl_reserved := by show readyP.ctrl &&& ~~~ctrlMask = 0; decide
  b5_needs_cal := fun _ => rfl
  reload_voids_b5 := by intro h; cases h
  count_in_frame := by intro k h; cases h
  compute_has_inputs := by
    intro k h
    cases h
    exact ⟨rfl, fun h => absurd rfl h, fun _ => rfl, fun _ => rfl⟩
  loss_latched := fun _ => rfl
  err_record := ⟨rfl, rfl⟩
  busy_no_error := fun _ => rfl

/-- LegalStatesAreKept: a legal state that steps to another state. -/
theorem witness_LegalStatesAreKept :
    (engineNext { readyP with eng := .computing .p }).scp.Legal ∧
      (nextOf (Machine.step (engineNext { readyP with eng := .computing .p }))).map (fun t => t.scp.pComp) =
        some 0x0001114C := ⟨legal_computing 23843 vcal1, by decide⟩

/-- EngineErrorsAreThoseOfTheRangeFacts: B5 at its greatest, and an engine step that records an error (V-C-20). -/
theorem witness_EngineErrorsAreThoseOfTheRangeFacts :
    Scp.B5InRange { Scp.reset with b5 := 67239932 } ∧
      Scp.B5InRange { readyP with eng := .computing .p, up := 65535, coefRaw := vcal1.set 3 1 } ∧
      Scp.Legal { readyP with eng := .computing .p, up := 65535, coefRaw := vcal1.set 3 1 } ∧
      (nextTurn (engineNext readyP)).1 = .engine ∧ (nextTurn (machine readyP)).1 = .engine ∧
      statusOf (Machine.step (engineNext { readyP with
        eng := .computing .p, up := 65535, coefRaw := vcal1.set 3 1 })) = some 0x2D06041E := by
  refine ⟨?_, ?_, legal_computing _ _, rfl, rfl, by decide⟩ <;> (unfold Scp.B5InRange; decide)

/-- OnlyTheLoaderWritesTheStore: a step that changes COEF_RAW and CAL_VALID, and CLEAR_CAL and a failed load that
change CAL_VALID. -/
theorem witness_OnlyTheLoaderWritesTheStore :
    (nextOf (Machine.step (streaming (loadingAt .cal 21) (.byte 0x34)))).map
      (fun t => (t.scp.coefRaw != (loadingAt .cal 21).coefRaw, t.scp.status.calValid)) = some (true, true) ∧
    (nextOf (Machine.step (hosting ready (cmdAccess 2)))).map (fun t => t.scp.status.calValid) = some false ∧
    (nextOf (Machine.step (streaming { loadingAt .cal 3 with status := ready.status } (.fail .shortRead)))).map
      (fun t => t.scp.status.calValid) = some false := by decide

/-- OnlyComputesWriteResults: an engine step that changes all three, and a legacy-zero completion. -/
theorem witness_OnlyComputesWriteResults :
    (nextOf (Machine.step (engineNext { ready with eng := .computing .tp }))).map
      (fun t => (t.scp.b5, t.scp.t10, t.scp.pComp)) = some (0x0000095F, 0x00000096, 0x0001114C) ∧
    (nextOf (Machine.step (hosting { legacy with t10 := 5, pComp := 7 } (cmdAccess 7)))).map
      (fun t => (t.scp.t10, t.scp.pComp)) = some (0, 0) := by decide

/-- FlagsStayUntilAcknowledged: all four flags set, then cleared by one STATUS write. -/
theorem witness_FlagsStayUntilAcknowledged :
    (nextOf (Machine.step (hosting { Scp.reset with status := { Status.reset with
      wrRej := true, irqDone := true, irqErr := true, strayFail := true } } ⟨.write 0xF00, 0x08, 4⟩))).map
      (fun t => (t.scp.status.wrRej, t.scp.status.irqDone, t.scp.status.irqErr, t.scp.status.strayFail)) =
      some (false, false, false, false) := by decide

/-- StaleShadowIsUnobservable: a load with 3 bytes taken, and another whose later SHADOW bytes differ. -/
theorem witness_StaleShadowIsUnobservable :
    Scp.SameButStaleShadow (loadingAt .cal 3) { loadingAt .cal 3 with shadow := vcal1Frame.set 3 0x77 } ∧
      (nextOf (Machine.step (streaming (loadingAt .cal 3) (.byte 0xB8)))).isSome := by
  refine ⟨⟨rfl, fun k _ => ?_⟩, by decide⟩
  decide

/-- EveryComputeEnds: a compute with a host access and two turns still to come. -/
theorem witness_EveryComputeEnds :
    let s : State := { hosting { ready with eng := .computing .tp } (cmdAccess 0) with turns := [.host, .stream] }
    s.scp.eng = .computing .tp ∧ s.HostAligned ∧ .reset ∉ s.turns := by
  refine ⟨rfl, ?_, by decide⟩
  unfold State.HostAligned
  decide

end Sys2Proof.Tests
end

section
/-! PROOFS. Floor division characterised by the bounds of its quotient (00_scope.md R11). -/

namespace Sys2Proof.Machine

/-- Negating dividend and divisor keeps the quotient: a negative divisor is reduced to a positive one. -/
theorem fdiv_neg_neg (a b : Int) : fdiv (-a) (-b) = fdiv a b := Int.neg_fdiv_neg a b

theorem eq_fdiv_iff_of_pos {b : Int} (hb : 0 < b) (a q : Int) :
    q = fdiv a b ↔ q * b ≤ a ∧ a < q * b + b := by
  have hf : fdiv a b = a / b := Int.fdiv_eq_ediv_of_nonneg a (Int.le_of_lt hb)
  rw [hf, eq_comm, Int.ediv_eq_iff_of_pos hb]

theorem eq_fdiv_iff_of_neg {b : Int} (hb : b < 0) (a q : Int) :
    q = fdiv a b ↔ q * b ≥ a ∧ a > q * b + b := by
  rw [← fdiv_neg_neg, eq_fdiv_iff_of_pos (Int.neg_pos_of_neg hb), Int.mul_neg]
  constructor <;> rintro ⟨hle, hlt⟩ <;> constructor <;> omega

/-- R11's definition of asr. -/
theorem asr_eq_fdiv (a : Int) (k : Nat) : asr a k = fdiv a (2 ^ k) := rfl

/-- Settles O40: the bounds for a positive divisor are the library's, and a negative divisor is the
positive one with both signs turned. -/
theorem floorDivision : Obligations.FloorDivision :=
  ⟨fun a _ q => ⟨fun hb => eq_fdiv_iff_of_pos hb a q, fun hb => eq_fdiv_iff_of_neg hb a q⟩, asr_eq_fdiv⟩

end Sys2Proof.Machine
end

section
/-! PROOFS. Decoding and encoding undo each other (30_encoding.md R80 to R85). -/

namespace Sys2Proof

/-- The fields of an instruction's word (R80). -/
theorem wordFields (i : Instr) : opField (encode i) = i.op ∧ rsvField (encode i) = i.rsv :=
  Laws.WordFields.fields_of_append _ _

/-- An OP of the opcode map's unassigned range decodes to the illegal instruction that carries it (R83). -/
theorem decodeOp_of_unassigned {op : BitVec 8} (h : 8 ≤ op.toNat) : decodeOp op = .illegalOp op := by
  have hne (k : BitVec 8) (hk : k.toNat < 8) : op ≠ k := by rintro rfl; omega
  simp [decodeOp, hne]

/-- With RSV = 0 the instruction decoded is well formed and has the OP it was decoded from (R81, R83). -/
theorem decodeOp_fields (op : BitVec 8) :
    (decodeOp op).WellFormed ∧ (decodeOp op).op = op ∧ (decodeOp op).rsv = 0 := by
  rw [← Instr.wellFormed_iff]
  decide +revert

theorem decode_encode {i : Instr} (h : i.WellFormed) : decode (encode i) = i := by
  obtain ⟨hop, hrsv⟩ := wordFields i
  rw [decode, hop, hrsv]
  cases i with
  | illegalOp op => exact decodeOp_of_unassigned h
  | illegalRsv rsv op => exact if_pos h
  | _ => rfl

theorem decode_wellFormed (w : Word) : (decode w).WellFormed := by
  unfold decode
  split
  · assumption
  · exact (decodeOp_fields _).1

/-- A word is its two fields, so an instruction with these fields encodes to it (R80). -/
theorem encode_eq_of_fields {w : Word} {i : Instr} (hrsv : i.rsv = rsvField w) (hop : i.op = opField w) :
    encode i = w := by
  apply BitVec.eq_of_toNat_eq
  rw [encode, Laws.WordFields.toNat_fields, hrsv, hop, rsvField, opField, BitVec.extractLsb'_toNat,
    BitVec.extractLsb'_toNat, Nat.shiftRight_eq_div_pow]
  have := w.isLt
  omega

theorem encode_decode (w : Word) : encode (decode w) = w := by
  unfold decode
  split
  · exact encode_eq_of_fields rfl rfl
  next h =>
    obtain ⟨-, hop, hrsv⟩ := decodeOp_fields (opField w)
    exact encode_eq_of_fields (by rw [hrsv, not_not.1 h]) hop

/-- The only word that decodes to an instruction is its own (R85). -/
theorem eq_encode_of_decode {w : Word} {i : Instr} (h : decode w = i) : w = encode i := by
  rw [← h, encode_decode]

end Sys2Proof
end

section
/-! PROOFS. What a command does to the SCP, and everything a step can do to it, as two inversion lemmas. -/

namespace Sys2Proof.Machine

/-- What issuing a command does to an idle SCP (R192). -/
def Scp.issue (i : Instr) (c : Scp) : Scp :=
  match i with
  | .nop => c
  | .loadCal => c.accept.issueLoadCal
  | .clearCal => c.accept.issueClearCal
  | .loadUt => c.accept.startLoad .ut
  | .loadUp => c.accept.latchOss.startLoad .up
  | .compT => c.accept.issueCompT
  | .compP => c.accept.issueCompP
  | .compensate => c.accept.issueCompensate
  | .illegalOp op => c.illegal 0 op
  | .illegalRsv _ op => c.illegal 1 op

/-- A command acts on the SCP alone, by its issue, unless the SCP is busy (R54, R192). -/
theorem exec_eq_issue (i : Instr) (s : State) : exec i s = .next (s.onScp (Scp.unlessBusy (Scp.issue i))) := by
  cases i <;> rfl

/-- The command that starts a compute of this kind (R143, R145, R147). -/
def CompKind.command : CompKind → Instr
  | .t => .compT
  | .p => .compP
  | .tp => .compensate

/-- The inputs that the issue of a compute checks are there (R143, R145, R147). -/
def Scp.HasInputs (c : Scp) (k : CompKind) : Prop :=
  c.status.calValid = true ∧ (k ≠ .p → c.status.utValid = true) ∧
    (k ≠ .t → c.status.upValid = true) ∧ (k = .p → c.status.b5Valid = true)

/-- Everything the issue of a command can do. A failure clears B5_VALID or does not; what it
records is one of R201's records if the command stands for a word. -/
inductive IssueEffect (c : Scp) : Instr → Scp → Prop
  | nop : IssueEffect c .nop c
  | clearCal : IssueEffect c .clearCal c.accept.issueClearCal
  | loadCal : IssueEffect c .loadCal (c.accept.clearB5Valid.startLoad .cal)
  | loadUt : IssueEffect c .loadUt (c.accept.startLoad .ut)
  | loadUp : IssueEffect c .loadUp (c.accept.latchOss.startLoad .up)
  | startT (inputs : c.HasInputs .t) : IssueEffect c .compT (c.accept.startCompute .t)
  | startP (k : CompKind) (pressure : k ≠ .t) (inputs : c.HasInputs k) :
      IssueEffect c k.command (c.accept.latchOss.startCompute k)
  | legacyZero (k : CompKind) (empty : c.status.calValid = false) (on : c.legacyZeroOn = true) :
      IssueEffect c k.command (c.accept.legacyZero k)
  | fail (i : Instr) {code : ErrCode} {sub : BitVec 4} {info : BitVec 8}
      (record : i.WellFormed → (c.fail code sub info).status.ErrRecord) : IssueEffect c i (c.fail code sub info)
  | failB5 (i : Instr) {code : ErrCode} {sub : BitVec 4} {info : BitVec 8}
      (record : (c.fail code sub info).status.ErrRecord) : IssueEffect c i (c.clearB5Valid.fail code sub info)

/-! A missing input is recorded as R201 says. A failure writes the whole error record, so that acceptance before it
leaves no trace (R192, R205). -/

theorem Scp.fail_uncalibrated_errRecord (c : Scp) : (c.fail .uncalibrated 0 0).status.ErrRecord := by
  simp [Status.ErrRecord]

theorem Scp.fail_noRaw_errRecord (c : Scp) {sub : BitVec 4} (h : sub.toNat ≤ 1) :
    (c.fail .noRaw sub 0).status.ErrRecord := by
  simpa [Status.ErrRecord] using h

theorem Scp.fail_noB5_errRecord (c : Scp) : (c.fail .noB5 0 0).status.ErrRecord := by
  simp [Status.ErrRecord]

theorem issueEffect_compT (c : Scp) : IssueEffect c .compT c.accept.issueCompT := by
  unfold Scp.issueCompT
  split_ifs with hcal hzero hut
  · exact .legacyZero .t hcal hzero
  · exact .failB5 _ c.fail_uncalibrated_errRecord
  · exact .failB5 _ (c.fail_noRaw_errRecord (by decide))
  · exact .startT ⟨by simpa using hcal, fun _ => by simpa using hut, nofun, nofun⟩

theorem issueEffect_compP (c : Scp) : IssueEffect c .compP c.accept.issueCompP := by
  unfold Scp.issueCompP
  split_ifs with hcal hzero hup hb5
  · exact .legacyZero .p hcal hzero
  · exact .fail _ fun _ => c.fail_uncalibrated_errRecord
  · exact .fail _ fun _ => c.fail_noRaw_errRecord (by decide)
  · exact .fail _ fun _ => c.fail_noB5_errRecord
  · exact .startP .p nofun
      ⟨by simpa using hcal, nofun, fun _ => by simpa using hup, fun _ => by simpa using hb5⟩

theorem issueEffect_compensate (c : Scp) : IssueEffect c .compensate c.accept.issueCompensate := by
  unfold Scp.issueCompensate
  split_ifs with hcal hzero hut hup
  · exact .legacyZero .tp hcal hzero
  · exact .failB5 _ c.fail_uncalibrated_errRecord
  · exact .failB5 _ (c.fail_noRaw_errRecord (by decide))
  · exact .failB5 _ (c.fail_noRaw_errRecord (by decide))
  · exact .startP .tp nofun
      ⟨by simpa using hcal, fun _ => by simpa using hut, fun _ => by simpa using hup, nofun⟩

theorem issueEffect (i : Instr) (c : Scp) : IssueEffect c i (c.issue i) := by
  cases i with
  | nop => exact .nop
  | loadCal => exact .loadCal
  | clearCal => exact .clearCal
  | loadUt => exact .loadUt
  | loadUp => exact .loadUp
  | compT => exact issueEffect_compT c
  | compP => exact issueEffect_compP c
  | compensate => exact issueEffect_compensate c
  | illegalOp op => exact .fail _ fun h => by simpa [Status.ErrRecord, Instr.WellFormed] using h
  | illegalRsv rsv op => exact .fail _ fun _ => by simp [Status.ErrRecord]

/-! ### A step -/

/-- Everything a host write of a register other than CMD can do (R53, R54, R56). -/
inductive WriteEffect (c : Scp) (w : Word) : Reg → Scp → Prop
  | ignored (r : Reg) : WriteEffect c w r c
  | rejected (r : Reg) : WriteEffect c w r c.rejectWrite
  | ctrl (idle : c.eng = .idle) : WriteEffect c w .ctrl (c.writeCtrl w)
  | status : WriteEffect c w .status (c.ackStatus w)
  | ut (idle : c.eng = .idle) : WriteEffect c w .ut (c.writeUt w)
  | up (idle : c.eng = .idle) : WriteEffect c w .up (c.writeUp w)

/-- A write that BUSY = 1 rejects (R54). -/
theorem WriteEffect.of_unlessBusy {c : Scp} {w : Word} {r : Reg} {f : Scp → Scp}
    (h : c.eng = .idle → WriteEffect c w r (f c)) : WriteEffect c w r (Scp.unlessBusy f c) := by
  rcases c.unlessBusy_cases f with ⟨idle, e⟩ | ⟨-, e⟩ <;> rw [e]
  · exact h idle
  · exact .rejected r

theorem writeEffect (r : Reg) (w : Word) (c : Scp) : WriteEffect c w r (Scp.write r w c) := by
  cases r with
  | ctrl => exact .of_unlessBusy .ctrl
  | status => exact .status
  | ut => exact .of_unlessBusy .ut
  | up => exact .of_unlessBusy .up
  | _ => exact .ignored _

/-- Everything a step can do to the SCP: the effects of its four agents (R14). -/
inductive StepEffect (s : State) : Scp → Prop
  | engine (turn : (nextTurn s).1 = .engine) : StepEffect s s.scp.engineStep
  | reset (turn : (nextTurn s).1 = .reset) : StepEffect s Scp.reset
  | unchanged : StepEffect s s.scp
  | rejected : StepEffect s s.scp.rejectWrite
  | byte (b : Byte) {k : LoadKind} (loading : s.scp.eng = .loading k) : StepEffect s (s.scp.streamByte b)
  | failure (cause : FailCause) : StepEffect s (s.scp.streamFail cause)
  | issue {w : Word} {as : List HostAccess} {c : Scp} (turn : (nextTurn s).1 = .host)
      (access : s.host = ⟨.write w, 0x04, 4⟩ :: as) (idle : s.scp.eng = .idle)
      (effect : IssueEffect s.scp (decode w) c) : StepEffect s c
  | ack {w : Word} {as : List HostAccess} (turn : (nextTurn s).1 = .host)
      (access : s.host = ⟨.write w, 0x08, 4⟩ :: as) : StepEffect s (s.scp.ackStatus w)
  | writeCtrl (w : Word) (idle : s.scp.eng = .idle) : StepEffect s (s.scp.writeCtrl w)
  | writeUt (w : Word) (idle : s.scp.eng = .idle) : StepEffect s (s.scp.writeUt w)
  | writeUp (w : Word) (idle : s.scp.eng = .idle) : StepEffect s (s.scp.writeUp w)

/-- A write of a register other than CMD, as an effect of the step. -/
theorem StepEffect.of_write {s : State} {off : BitVec 8} {w : Word} {as : List HostAccess} {c : Scp}
    (turn : (nextTurn s).1 = .host) (access : s.host = ⟨.write w, off, 4⟩ :: as)
    (h : WriteEffect s.scp w (regAt off) c) : StepEffect s c := by
  generalize hr : regAt off = r at h
  cases h with
  | ignored => exact .unchanged
  | rejected => exact .rejected
  | ctrl idle => exact .writeCtrl w idle
  | status =>
    obtain rfl := (regAt_eq_status off).1 hr
    exact .ack turn access
  | ut idle => exact .writeUt w idle
  | up idle => exact .writeUp w idle

theorem stepEffect {s t : State} (h : step s = .next t) : StepEffect s t.scp := by
  rcases step_cases h with ⟨turn, e⟩ | ⟨turn, e⟩ | e | ⟨-, ready, b, es, -, e⟩ | ⟨-, cause, es, -, e⟩ |
    ⟨turn, w, as, access, u, hu, hexec⟩ | ⟨turn, off, w, as, -, access, e⟩
  · rw [e]; exact .engine turn
  · rw [e]; exact .reset turn
  · rw [e]; exact .unchanged
  · obtain ⟨k, loading⟩ := (Scp.sReady_eq_true _).1 ready
    rw [e]; exact .byte b loading
  · rw [e]; exact .failure cause
  · rw [exec_eq_issue, Host.Outcome.next.injEq] at hexec
    rw [← hexec, State.onScp_scp, hu]
    rcases s.scp.unlessBusy_cases (Scp.issue (decode w)) with ⟨idle, e⟩ | ⟨-, e⟩ <;> rw [e]
    · exact .issue turn access idle (issueEffect _ _)
    · exact .rejected
  · rw [e]; exact .of_write turn access (writeEffect _ _ _)

end Sys2Proof.Machine
end

section
/-! PROOFS. What the engine's step can do: the steps that can divide by zero (42_compensation.md R141 to R168) and
the outcomes of the three computes (R144, R146, R148). -/

namespace Sys2Proof.Machine

/-- A failure by DIV_ZERO carries the code of T2 or P12, the two steps that divide by an operand (R151, R165). -/
def StepFail.AtADivision (e : StepFail) : Prop := ∀ c, e = .divZero c → c = .t2 ∨ c = .p12

/-- A computation of the engine that divides at T2 and P12 only. -/
def DividesAtT2P12 {α : Type} (x : Except StepFail α) : Prop := ∀ e, x = .error e → e.AtADivision

namespace DividesAtT2P12

variable {α β : Type}

theorem ok (a : α) : DividesAtT2P12 (.ok a) := nofun

theorem overflow (c : StepCode) : DividesAtT2P12 (.error (.overflow c) : Except StepFail α) := by
  rintro _ ⟨⟩ _ ⟨⟩

theorem bind {x : Except StepFail α} {f : α → Except StepFail β} (hx : DividesAtT2P12 x)
    (hf : ∀ a, DividesAtT2P12 (f a)) : DividesAtT2P12 (x >>= f) := by
  cases x with
  | error e => rintro _ ⟨⟩; exact hx e rfl
  | ok a => exact hf a

theorem chk (x : Int) (c : StepCode) : DividesAtT2P12 (chk x c) := by
  rcases chk_cases x c with ⟨-, e⟩ | ⟨-, e⟩ <;> rw [e]
  · exact ok x
  · exact overflow c

theorem chk32 (x : Int) (c : StepCode) : DividesAtT2P12 (chk32 x c) := by
  by_cases h : fits32 x
  · rw [chk32_of_fits c h]; exact ok x
  · rw [chk32_of_not_fits c h]; exact overflow c

theorem divChk (a b : Int) {c : StepCode} (hc : c = .t2 ∨ c = .p12) : DividesAtT2P12 (divChk a b c) := by
  by_cases h : b = 0
  · subst h
    rw [divChk_zero]
    rintro _ ⟨⟩ _ ⟨⟩
    exact hc
  · rw [divChk_of_ne a c h]
    exact chk _ _

/-- A step that checks a value and one formed from it. -/
theorem chk2 (x : Int) (y : Int → Int) (c : StepCode) :
    DividesAtT2P12 (Machine.chk x c >>= fun a => Machine.chk (y a) c) :=
  bind (chk x c) fun _ => chk _ c

theorem tseq (ut ac5 ac6 mc md : Int) : DividesAtT2P12 (tseq ut ac5 ac6 mc md) :=
  bind (bind (chk _ _) fun _ => chk2 _ _ _) fun _ =>
  bind (bind (chk _ _) fun _ => bind (chk _ _) fun _ => divChk _ _ (.inl rfl)) fun _ =>
  bind (chk _ _) fun _ =>
  bind (bind (chk _ _) fun _ => bind (chk _ _) fun _ => chk32 _ _) fun _ => ok _

theorem stepP6 (ac1 x3 : Int) (oss : Nat) : DividesAtT2P12 (stepP6 ac1 x3 oss) :=
  bind (chk _ _) fun _ => bind (chk _ _) fun _ => bind (chk _ _) fun _ => chk2 _ _ _

theorem pseqHead (up b5 ac1 ac2 ac3 ac4 b1 b2 : Int) (oss : Nat) :
    DividesAtT2P12 (pseqHead up b5 ac1 ac2 ac3 ac4 b1 b2 oss) :=
  bind (chk _ _) fun _ => bind (chk2 _ _ _) fun _ => bind (chk2 _ _ _) fun _ => bind (chk2 _ _ _) fun _ =>
  bind (chk _ _) fun _ => bind (stepP6 _ _ _) fun _ => bind (chk2 _ _ _) fun _ => bind (chk2 _ _ _) fun _ =>
  bind (bind (chk _ _) fun _ => chk2 _ _ _) fun _ => bind (bind (chk _ _) fun _ => chk2 _ _ _) fun _ =>
  bind (chk2 _ _ _) fun _ => bind (divChk _ _ (.inr rfl)) fun _ => chk _ _

theorem pseqTail (p : Int) : DividesAtT2P12 (pseqTail p) :=
  bind (bind (chk _ _) fun _ => bind (chk _ _) fun _ => chk2 _ _ _) fun _ => bind (chk2 _ _ _) fun _ =>
  bind (chk _ _) fun _ => bind (chk _ _) fun _ => bind (chk _ _) fun _ => bind (chk _ _) fun _ => chk32 _ _

theorem runT (c : Scp) : DividesAtT2P12 c.runT := tseq _ _ _ _ _

theorem runP (c : Scp) (b5 : Int) : DividesAtT2P12 (c.runP b5) :=
  bind (pseqHead _ _ _ _ _ _ _ _ _) pseqTail

theorem runTP (c : Scp) : DividesAtT2P12 c.runTP :=
  bind (runT c) fun r => bind (runP c r.1) fun _ => ok _

end DividesAtT2P12

/-- A failing step's record is one of R201's. -/
theorem Scp.failStep_errRecord (c : Scp) {e : StepFail} (h : e.AtADivision) : (c.failStep e).status.ErrRecord := by
  cases e with
  | divZero code =>
    rcases h code rfl with rfl | rfl
    · exact ⟨rfl, .inl rfl⟩
    · exact ⟨rfl, .inr rfl⟩
  | overflow code => exact ⟨rfl, code, rfl⟩

/-- Everything the engine's step can do (R140, R144, R146, R148). -/
inductive EngineEffect (c : Scp) : Scp → Prop
  | none (h : ∀ k, c.eng ≠ .computing k) : EngineEffect c c
  | fail {e : StepFail} (record : e.AtADivision) : EngineEffect c (c.failStep e)
  | failB5 {e : StepFail} (record : e.AtADivision) : EngineEffect c (c.clearB5Valid.failStep e)
  | doneT (b5 t10 : Word) (h : c.eng = .computing .t) : EngineEffect c (Scp.complete { c with
      b5 := b5, t10 := t10, status := { c.status with b5Valid := true, tValid := true, pValid := false } })
  | doneP (pc : Word) (h : c.eng = .computing .p) : EngineEffect c (Scp.complete { c with
      pComp := pc, status := { c.status with pValid := true } })
  | doneTP (b5 t10 pc : Word) (h : c.eng = .computing .tp) : EngineEffect c (Scp.complete { c with
      b5 := b5, t10 := t10, pComp := pc
      status := { c.status with b5Valid := true, tValid := true, pValid := true } })

theorem engineEffect (c : Scp) : EngineEffect c c.engineStep := by
  unfold Scp.engineStep
  split
  next h => exact .none (by simp [h])
  next k h => exact .none (by simp [h])
  next h =>
    unfold Scp.engineT
    split
    next e he => exact .failB5 (DividesAtT2P12.runT c e he)
    next r _ => exact .doneT _ _ h
  next h =>
    unfold Scp.engineP
    split
    next e he => exact .fail (DividesAtT2P12.runP c _ e he)
    next pc _ => exact .doneP _ h
  next h =>
    unfold Scp.engineTP
    split
    next e he => exact .failB5 (DividesAtT2P12.runTP c e he)
    next r _ => exact .doneTP _ _ _ h

end Sys2Proof.Machine
end

section
/-! PROOFS. The legal states are closed under every step (10_state.md R22, R26, R36, R37). -/

namespace Sys2Proof.Machine

/-- An idle SCP is legal when its CTRL, its B5_VALID and its error record are. -/
theorem Scp.Legal.of_idle {c : Scp} (idle : c.eng = .idle) (hctrl : c.ctrl &&& ~~~ctrlMask = 0)
    (hb5 : c.status.b5Valid = true → c.status.calValid = true) (record : c.status.ErrRecord) : c.Legal where
  ctrl_reserved := hctrl
  b5_needs_cal := hb5
  reload_voids_b5 := by simp [idle]
  count_in_frame := by simp [idle]
  compute_has_inputs := by simp [idle]
  loss_latched := by simp [idle]
  err_record := record
  busy_no_error := by simp [idle]

theorem Scp.reset_legal : Scp.reset.Legal := .of_idle rfl (by decide) nofun ⟨rfl, rfl⟩

/-- The count goes up by one at most. -/
theorem Scp.countByte_n_le (c : Scp) : c.countByte.n.val ≤ c.n.val + 1 := by
  rw [Scp.countByte_n, Fin.val_add]
  exact Nat.mod_le _ _

section
variable {c : Scp}

theorem Scp.legal_fail {code : ErrCode} {sub : BitVec 4} {info : BitVec 8}
    (hctrl : c.ctrl &&& ~~~ctrlMask = 0) (hb5 : c.status.b5Valid = true → c.status.calValid = true)
    (record : (c.fail code sub info).status.ErrRecord) : (c.fail code sub info).Legal :=
  .of_idle rfl hctrl hb5 record

theorem Scp.legal_complete (hctrl : c.ctrl &&& ~~~ctrlMask = 0)
    (hb5 : c.status.b5Valid = true → c.status.calValid = true) (record : c.status.ErrRecord) : c.complete.Legal :=
  .of_idle rfl hctrl hb5 record

namespace Scp.Legal

/-- The W1C flags play no part. -/
theorem withFlags (h : c.Legal) (rej done err stray : Bool) :
    Legal { c with status := { c.status with wrRej := rej, irqDone := done, irqErr := err, strayFail := stray } } :=
  { h with }

theorem accept (h : c.Legal) : c.accept.Legal :=
  { h with err_record := ⟨rfl, rfl⟩, busy_no_error := fun _ => rfl }

theorem latchOss (h : c.Legal) : c.latchOss.Legal :=
  { h with loss_latched := fun _ => rfl }

theorem clearB5Valid (h : c.Legal) (idle : c.eng = .idle) : c.clearB5Valid.Legal :=
  .of_idle idle h.ctrl_reserved nofun h.err_record

/-- A load of the store starts with B5_VALID = 0, a load of UP with LOSS latched (R100, R123). -/
theorem startLoad (h : c.Legal) (hno : c.status.err = .noError) {k : LoadKind}
    (hb5 : k = .cal → c.status.b5Valid = false) (hloss : k = .up → c.loss = c.oss) : (c.startLoad k).Legal :=
  { h with
    reload_voids_b5 := by rintro ⟨⟩; exact hb5 rfl
    count_in_frame := by
      rintro k' -
      show 0 < k'.frameBytes
      cases k' <;> decide
    compute_has_inputs := nofun
    loss_latched := by rintro (⟨⟨⟩⟩ | ⟨⟨⟩⟩ | ⟨⟨⟩⟩); exact hloss rfl
    busy_no_error := fun _ => hno }

theorem startCompute (h : c.Legal) (hno : c.status.err = .noError) {k : CompKind}
    (inputs : c.HasInputs k) (hloss : k ≠ .t → c.loss = c.oss) : (c.startCompute k).Legal :=
  { h with
    reload_voids_b5 := nofun
    count_in_frame := nofun
    compute_has_inputs := by rintro _ ⟨⟩; exact inputs
    loss_latched := by rintro (⟨⟨⟩⟩ | ⟨⟨⟩⟩ | ⟨⟨⟩⟩) <;> exact hloss nofun
    busy_no_error := fun _ => hno }

/-! ### Each kind of step -/

theorem issue (h : c.Legal) (idle : c.eng = .idle) {i : Instr} (hi : i.WellFormed) {d : Scp}
    (e : IssueEffect c i d) : d.Legal := by
  cases e with
  | nop => exact h
  | clearCal => exact legal_complete h.ctrl_reserved nofun ⟨rfl, rfl⟩
  | loadCal => exact (h.accept.clearB5Valid idle).startLoad rfl (fun _ => rfl) nofun
  | loadUt => exact h.accept.startLoad rfl nofun nofun
  | loadUp => exact h.accept.latchOss.startLoad rfl nofun (fun _ => rfl)
  | startT inputs => exact h.accept.startCompute rfl inputs (absurd rfl)
  | startP k _ inputs => exact h.accept.latchOss.startCompute rfl inputs (fun _ => rfl)
  | legacyZero k =>
    cases k <;> exact legal_complete h.ctrl_reserved h.b5_needs_cal ⟨Nat.le_refl 1, rfl⟩
  | fail _ record => exact legal_fail h.ctrl_reserved h.b5_needs_cal (record hi)
  | failB5 _ record => exact legal_fail h.ctrl_reserved nofun record

theorem engine (h : c.Legal) {d : Scp} (e : EngineEffect c d) : d.Legal := by
  have hcal {k : CompKind} (hk : c.eng = .computing k) : c.status.calValid = true := (h.compute_has_inputs k hk).1
  cases e with
  | none => exact h
  | fail record => exact legal_fail h.ctrl_reserved h.b5_needs_cal (c.failStep_errRecord record)
  | failB5 record => exact legal_fail h.ctrl_reserved nofun (c.failStep_errRecord record)
  | doneT _ _ hk => exact legal_complete h.ctrl_reserved (fun _ => hcal hk) h.err_record
  | doneP _ hk => exact legal_complete h.ctrl_reserved h.b5_needs_cal h.err_record
  | doneTP _ _ _ hk => exact legal_complete h.ctrl_reserved (fun _ => hcal hk) h.err_record

/-- A byte that is not the last of its load is counted within the frame (R36, R61). -/
theorem storeAndCount (h : c.Legal) (b : Byte) {k : LoadKind} (loading : c.eng = .loading k)
    (notLast : c.n.val ≠ k.frameBytes - 1) : (c.storeByte b).countByte.Legal :=
  { h with
    count_in_frame := by
      intro k' hk
      obtain rfl : k = k' := by simpa [loading] using hk
      have hlt := h.count_in_frame k loading
      have hle := (c.storeByte b).countByte_n_le
      rw [storeByte_n] at hle
      omega }

theorem commit (h : c.Legal) (k : LoadKind) : (c.commit k).Legal := by
  cases k with
  | cal => exact legal_complete h.ctrl_reserved (fun _ => rfl) h.err_record
  | ut => exact legal_complete h.ctrl_reserved h.b5_needs_cal h.err_record
  | up => exact legal_complete h.ctrl_reserved h.b5_needs_cal h.err_record

theorem storeByte (h : c.Legal) (b : Byte) : (c.storeByte b).Legal :=
  { h with }

theorem streamByte (h : c.Legal) (b : Byte) {k : LoadKind} (loading : c.eng = .loading k) :
    (c.streamByte b).Legal := by
  rw [c.streamByte_loading b k loading]
  split_ifs with hlast
  · exact (h.storeByte b).commit k
  · exact h.storeAndCount b loading hlast

/-- A failed load leaves no B5_VALID without CAL_VALID: the reload has cleared it (R100, R103). -/
theorem loadFail (h : c.Legal) (cause : FailCause) {k : LoadKind} (loading : c.eng = .loading k) :
    (c.loadFail k cause).Legal := by
  have record (d : Scp) : (d.fail .busError cause.sub (BitVec.ofNat 8 c.n.val)).status.ErrRecord := by
    have hn := c.n.isLt
    refine ⟨?_, ?_⟩
    · show cause.sub.toNat ≤ 1
      cases cause <;> decide
    · show (BitVec.ofNat 8 c.n.val).toNat ≤ 21
      rw [BitVec.toNat_ofNat]
      omega
  cases k with
  | cal => exact legal_fail h.ctrl_reserved (by simp [h.reload_voids_b5 loading]) (record _)
  | ut => exact legal_fail h.ctrl_reserved h.b5_needs_cal (record _)
  | up => exact legal_fail h.ctrl_reserved h.b5_needs_cal (record _)

theorem streamFail (h : c.Legal) (cause : FailCause) : (c.streamFail cause).Legal := by
  rcases c.streamFail_cases cause with ⟨k, loading, e⟩ | ⟨-, e⟩ <;> rw [e]
  · exact h.loadFail cause loading
  · exact h.withFlags _ _ _ true

/-- CTRL keeps its defined fields only (R22, R194). -/
theorem writeCtrl (h : c.Legal) (idle : c.eng = .idle) (w : Word) : (c.writeCtrl w).Legal := by
  refine .of_idle idle ?_ h.b5_needs_cal h.err_record
  rw [writeCtrl_ctrl, BitVec.and_assoc, BitVec.and_not_self]
  exact BitVec.and_zero

theorem stepEffect {s : State} {d : Scp} (h : s.scp.Legal) (e : StepEffect s d) : d.Legal := by
  cases e with
  | engine => exact h.engine (engineEffect _)
  | reset => exact reset_legal
  | unchanged => exact h
  | rejected => exact h.withFlags true _ _ _
  | byte b loading => exact h.streamByte b loading
  | failure cause => exact h.streamFail cause
  | issue _ _ idle effect => exact h.issue idle (decode_wellFormed _) effect
  | ack => exact h.withFlags _ _ _ _
  | writeCtrl w idle => exact h.writeCtrl idle w
  | writeUt w idle => exact .of_idle idle h.ctrl_reserved h.b5_needs_cal h.err_record
  | writeUp w idle => exact .of_idle idle h.ctrl_reserved h.b5_needs_cal h.err_record

end Scp.Legal
end

/-- Settles O52: each of a step's effects keeps a legal state legal. -/
theorem legalStatesAreKept : Obligations.LegalStatesAreKept :=
  fun _ _ h hstep => h.stepEffect (stepEffect hstep)

/-- Settles O53. -/
theorem resetStateIsLegal : Obligations.ResetStateIsLegal := by
  refine ⟨Scp.reset_legal, ?_⟩
  unfold Scp.B5InRange
  decide

end Sys2Proof.Machine
end

section
/-! PROOFS. SHADOW beyond the bytes of the load in progress is never observed (10_state.md R36, R43): every
operation but the taking of a stream byte neither reads nor writes SHADOW, and a commit reads only the bytes of its
own frame. -/

namespace Sys2Proof.Machine

/-- The SCP with other SHADOW bytes. -/
def Scp.withShadow (c : Scp) (sh : Vector Byte 22) : Scp := { c with shadow := sh }

/-! ### Operations that neither read nor write SHADOW -/

/-- `f` neither reads nor writes SHADOW. -/
def IgnoresShadow (f : Scp → Scp) : Prop := ∀ c sh, f (c.withShadow sh) = (f c).withShadow sh

theorem IgnoresShadow.unlessBusy {f : Scp → Scp} (h : IgnoresShadow f) : IgnoresShadow (Scp.unlessBusy f) := by
  intro c sh
  rcases c.unlessBusy_cases f with ⟨idle, e⟩ | ⟨busy, e⟩ <;> rw [e]
  · rw [Scp.unlessBusy_idle f (c.withShadow sh) idle, h]
  · exact Scp.unlessBusy_busy f (c.withShadow sh) busy

theorem issueCompT_ignoresShadow : IgnoresShadow Scp.issueCompT := by
  intro c sh
  simp only [Scp.issueCompT, apply_ite (Scp.withShadow · sh)]
  rfl

theorem issueCompP_ignoresShadow : IgnoresShadow Scp.issueCompP := by
  intro c sh
  simp only [Scp.issueCompP, apply_ite (Scp.withShadow · sh)]
  rfl

theorem issueCompensate_ignoresShadow : IgnoresShadow Scp.issueCompensate := by
  intro c sh
  simp only [Scp.issueCompensate, apply_ite (Scp.withShadow · sh)]
  rfl

theorem issue_ignoresShadow (i : Instr) : IgnoresShadow (Scp.issue i) := by
  intro c sh
  cases i with
  | compT => exact issueCompT_ignoresShadow c.accept sh
  | compP => exact issueCompP_ignoresShadow c.accept sh
  | compensate => exact issueCompensate_ignoresShadow c.accept sh
  | _ => rfl

theorem write_ignoresShadow (r : Reg) (w : Word) : IgnoresShadow (Scp.write r w) := by
  cases r with
  | ctrl => exact .unlessBusy fun _ _ => rfl
  | ut => exact .unlessBusy fun _ _ => rfl
  | up => exact .unlessBusy fun _ _ => rfl
  | _ => exact fun _ _ => rfl

theorem engineT_ignoresShadow : IgnoresShadow Scp.engineT := by
  intro c sh
  have hrun : (c.withShadow sh).runT = c.runT := rfl
  unfold Scp.engineT
  rw [hrun]
  cases c.runT <;> rfl

theorem engineP_ignoresShadow : IgnoresShadow Scp.engineP := by
  intro c sh
  have hrun (b5 : Int) : (c.withShadow sh).runP b5 = c.runP b5 := rfl
  unfold Scp.engineP
  rw [hrun, show (c.withShadow sh).b5 = c.b5 from rfl]
  cases c.runP (sext c.b5) <;> rfl

theorem engineTP_ignoresShadow : IgnoresShadow Scp.engineTP := by
  intro c sh
  have hrun : (c.withShadow sh).runTP = c.runTP := rfl
  unfold Scp.engineTP
  rw [hrun]
  cases c.runTP <;> rfl

theorem engineStep_ignoresShadow : IgnoresShadow Scp.engineStep := by
  intro c sh
  have heng : (c.withShadow sh).eng = c.eng := rfl
  unfold Scp.engineStep
  rw [heng]
  rcases c.eng with _ | k | k
  · rfl
  · rfl
  · cases k with
    | t => exact engineT_ignoresShadow c sh
    | p => exact engineP_ignoresShadow c sh
    | tp => exact engineTP_ignoresShadow c sh

theorem streamFail_ignoresShadow (cause : FailCause) : IgnoresShadow (Scp.streamFail cause) := by
  intro c sh
  have heng : (c.withShadow sh).eng = c.eng := rfl
  unfold Scp.streamFail
  rw [heng]
  rcases c.eng with _ | k | k
  · rfl
  · cases k <;> rfl
  · rfl

/-! ### What such an operation does to the count of taken bytes -/

/-- A load in progress in `d` starts there, or it is the load of `c` with the same bytes taken. -/
def Scp.CountKept (c d : Scp) : Prop :=
  ∀ k, d.eng = .loading k → d.n = 0 ∨ (c.eng = .loading k ∧ d.n = c.n)

theorem Scp.CountKept.of_same {c d : Scp} (heng : d.eng = c.eng) (hn : d.n = c.n) : c.CountKept d :=
  fun _ h => .inr ⟨heng ▸ h, hn⟩

theorem Scp.CountKept.of_idle {c d : Scp} (idle : d.eng = .idle) : c.CountKept d := by
  intro k h
  simp [idle] at h

theorem IssueEffect.countKept {c d : Scp} {i : Instr} (e : IssueEffect c i d) : c.CountKept d := by
  cases e with
  | nop => exact .of_same rfl rfl
  | loadCal => exact fun _ _ => .inl rfl
  | loadUt => exact fun _ _ => .inl rfl
  | loadUp => exact fun _ _ => .inl rfl
  | startT => exact nofun
  | startP => exact nofun
  | _ => exact .of_idle rfl

theorem WriteEffect.countKept {c d : Scp} {w : Word} {r : Reg} (e : WriteEffect c w r d) : c.CountKept d := by
  cases e <;> exact .of_same rfl rfl

theorem EngineEffect.countKept {c d : Scp} (e : EngineEffect c d) : c.CountKept d := by
  cases e with
  | none => exact .of_same rfl rfl
  | _ => exact .of_idle rfl

theorem unlessBusy_countKept {f : Scp → Scp} {c : Scp} (h : c.CountKept (f c)) :
    c.CountKept (Scp.unlessBusy f c) := by
  rcases c.unlessBusy_cases f with ⟨-, e⟩ | ⟨-, e⟩ <;> rw [e]
  · exact h
  · exact .of_same rfl rfl

theorem streamFail_countKept (cause : FailCause) (c : Scp) : c.CountKept (c.streamFail cause) := by
  rcases c.streamFail_cases cause with ⟨k, -, e⟩ | ⟨-, e⟩ <;> rw [e]
  · cases k <;> exact .of_idle rfl
  · exact .of_same rfl rfl

/-! ### The relation is kept -/

section
variable {c d : Scp}

/-- An operation that ignores SHADOW and keeps the count keeps the relation. -/
theorem Scp.SameButStaleShadow.map {f : Scp → Scp} (h : c.SameButStaleShadow d) (hf : IgnoresShadow f)
    (count : c.CountKept (f c)) : (f c).SameButStaleShadow (f d) := by
  obtain ⟨hd, taken⟩ := h
  have hfd : f d = (f c).withShadow d.shadow := hd ▸ hf c d.shadow
  have hfc : f c = (f c).withShadow c.shadow := hf c c.shadow
  have hdsh : (f d).shadow = d.shadow := by rw [hfd]; rfl
  have hcsh : (f c).shadow = c.shadow := by rw [hfc]; rfl
  refine ⟨hdsh ▸ hfd, fun k loading j hj => ?_⟩
  rw [hdsh, hcsh]
  rcases count k loading with hn | ⟨hk, hn⟩ <;> rw [hn] at hj
  · exact absurd hj (Nat.not_lt_zero _)
  · exact taken k hk j hj

/-- A commit reads the bytes of its own frame only (R102, R121, R124). -/
theorem Scp.commit_withShadow (c : Scp) {sh : Vector Byte 22} {k : LoadKind}
    (taken : ∀ j : Fin 22, j.val < k.frameBytes → c.shadow[j] = sh[j]) :
    (c.withShadow sh).commit k = (c.commit k).withShadow sh := by
  cases k with
  | cal =>
    obtain rfl : c.shadow = sh := Vector.ext fun j hj => taken ⟨j, hj⟩ hj
    rfl
  | ut =>
    have h0 : c.shadow[0] = sh[0] := taken 0 (by decide)
    have h1 : c.shadow[1] = sh[1] := taken 1 (by decide)
    simp only [Scp.commit, Scp.commitUt, h0, h1]
    rfl
  | up =>
    have h0 : c.shadow[0] = sh[0] := taken 0 (by decide)
    have h1 : c.shadow[1] = sh[1] := taken 1 (by decide)
    have h2 : c.shadow[2] = sh[2] := taken 2 (by decide)
    simp only [Scp.commit, Scp.commitUp, h0, h1, h2]
    rfl

/-- The byte taken is the same in both, so they agree up to and with it. -/
theorem storeByte_agrees (b : Byte) (n : Fin 22) {v sh : Vector Byte 22}
    (taken : ∀ j : Fin 22, j.val < n.val → v[j] = sh[j]) (j : Fin 22) (hj : j.val ≤ n.val) :
    (v.set n b)[j] = (sh.set n b)[j] := by
  rcases Nat.lt_or_eq_of_le hj with hlt | heq
  · have hne : n.val ≠ j.val := by omega
    simpa [Vector.getElem_set, hne] using taken j hlt
  · simp [heq]

theorem Scp.SameButStaleShadow.streamByte (h : c.SameButStaleShadow d) (b : Byte) {k : LoadKind}
    (loading : c.eng = .loading k) : (c.streamByte b).SameButStaleShadow (d.streamByte b) := by
  obtain ⟨hd, taken⟩ := h
  generalize d.shadow = sh at hd taken
  subst hd
  have agree := storeByte_agrees b c.n (taken k loading)
  rw [c.streamByte_loading b k loading, Scp.streamByte_loading b { c with shadow := sh } k loading]
  show Scp.SameButStaleShadow _ (if c.n.val = k.frameBytes - 1 then _ else _)
  split_ifs with hlast
  · have hcommit := (c.storeByte b).commit_withShadow (k := k) (sh := sh.set c.n b) fun j hj => agree j (by omega)
    rw [show (Scp.storeByte b { c with shadow := sh }) = (c.storeByte b).withShadow (sh.set c.n b) from rfl, hcommit]
    exact ⟨rfl, fun k' h => by cases k <;> cases h⟩
  · refine ⟨rfl, fun _ _ j hj => agree j ?_⟩
    exact Nat.le_of_lt_succ (Nat.lt_of_lt_of_le hj (c.storeByte b).countByte_n_le)

end

/-! ### The step -/

/-- A next state of the first outcome has a partner of the second that differs in stale SHADOW bytes at most. -/
def SameButStaleOutcome (o o' : Host.Outcome State Fault Refusal) : Prop :=
  ∀ t, o = .next t → ∃ e, o' = .next { t with scp := e } ∧ t.scp.SameButStaleShadow e

theorem sameButStaleOutcome_next {t : State} {e : Scp} (h : t.scp.SameButStaleShadow e) :
    SameButStaleOutcome (.next t) (.next { t with scp := e }) := by
  rintro _ ⟨⟩
  exact ⟨e, rfl, h⟩

section
variable {s : State} {d : Scp}

theorem exec_sameButStale (h : s.scp.SameButStaleShadow d) (i : Instr) :
    SameButStaleOutcome (exec i s) (exec i { s with scp := d }) := by
  rw [exec_eq_issue, exec_eq_issue]
  exact sameButStaleOutcome_next
    (h.map (issue_ignoresShadow i).unlessBusy (unlessBusy_countKept (issueEffect i _).countKept))

theorem regWrite_sameButStale (h : s.scp.SameButStaleShadow d) (r : Reg) (w : Word) :
    SameButStaleOutcome (regWrite r w s) (regWrite r w { s with scp := d }) := by
  by_cases hr : r = .cmd
  · subst hr
    rw [regWrite_cmd, regWrite_cmd]
    exact exec_sameButStale h (decode w)
  · rw [regWrite_of_ne r w _ hr, regWrite_of_ne r w _ hr]
    exact sameButStaleOutcome_next (h.map (write_ignoresShadow r w) (writeEffect r w _).countKept)

/-- No register shows SHADOW (R193). -/
theorem Scp.SameButStaleShadow.read {c d : Scp} (h : c.SameButStaleShadow d) (r : Reg) : d.read r = c.read r := by
  rw [h.1]
  rfl

theorem hostAccess_sameButStale (h : s.scp.SameButStaleShadow d) (a : HostAccess) :
    SameButStaleOutcome (hostAccess a s) (hostAccess a { s with scp := d }) := by
  obtain ⟨op, off, size⟩ := a
  by_cases ha : HostAccess.aligned ⟨op, off, size⟩ = true
  · obtain ⟨rfl, hoff⟩ := (HostAccess.aligned_iff _).1 ha
    cases op with
    | read =>
      rw [hostAccess_read _ off hoff, hostAccess_read _ off hoff]
      show SameButStaleOutcome _ (.next { s with scp := d, readData := some (d.read (regAt off)) })
      rw [h.read (regAt off)]
      exact sameButStaleOutcome_next (t := { s with readData := some (s.scp.read (regAt off)) }) h
    | write w =>
      rw [hostAccess_write _ off w hoff, hostAccess_write _ off w hoff]
      exact regWrite_sameButStale h (regAt off) w
  · intro t ht
    rw [hostAccess, if_neg ha] at ht
    cases ht

theorem hostTurn_sameButStale (h : s.scp.SameButStaleShadow d) :
    SameButStaleOutcome (hostTurn s) (hostTurn { s with scp := d }) := by
  obtain ⟨c, turns, host, stream, readData⟩ := s
  cases host with
  | nil => exact sameButStaleOutcome_next h
  | cons a as => exact hostAccess_sameButStale (s := ⟨c, turns, as, stream, readData⟩) h a

theorem streamTurn_sameButStale (h : s.scp.SameButStaleShadow d) :
    SameButStaleOutcome (.next (streamTurn s)) (.next (streamTurn { s with scp := d })) := by
  have hready : d.sReady = s.scp.sReady := by rw [h.1]; rfl
  obtain ⟨c, turns, host, stream, readData⟩ := s
  rcases stream with _ | ⟨b | cause, es⟩
  · exact sameButStaleOutcome_next h
  · simp only [streamTurn, hready]
    split_ifs with ready
    · obtain ⟨k, loading⟩ := (Scp.sReady_eq_true c).1 ready
      exact sameButStaleOutcome_next (t := ⟨c.streamByte b, turns, host, es, readData⟩) (h.streamByte b loading)
    · exact sameButStaleOutcome_next h
  · exact sameButStaleOutcome_next (t := ⟨c.streamFail cause, turns, host, es, readData⟩)
      (h.map (streamFail_ignoresShadow cause) (streamFail_countKept cause c))

theorem agentTurn_sameButStale (h : s.scp.SameButStaleShadow d) (a : Agent) :
    SameButStaleOutcome (agentTurn a s) (agentTurn a { s with scp := d }) := by
  cases a with
  | host => exact hostTurn_sameButStale h
  | stream => exact streamTurn_sameButStale h
  | engine =>
    exact sameButStaleOutcome_next (t := s.onScp Scp.engineStep) (e := d.engineStep)
      (h.map engineStep_ignoresShadow (engineEffect _).countKept)
  | reset => exact sameButStaleOutcome_next (t := resetTurn s) (e := Scp.reset) ⟨rfl, nofun⟩

/-- Whose turn it is does not depend on the SCP. -/
theorem step_sameButStale (h : s.scp.SameButStaleShadow d) :
    SameButStaleOutcome (step s) (step { s with scp := d }) := by
  obtain ⟨c, turns, host, stream, readData⟩ := s
  cases turns with
  | nil => exact agentTurn_sameButStale (s := ⟨c, [], host, stream, readData⟩) h .engine
  | cons a ts => exact agentTurn_sameButStale (s := ⟨c, ts, host, stream, readData⟩) h a

end

/-- Settles O58: the two machines take the same turn, and each agent's turn keeps the relation. -/
theorem staleShadowIsUnobservable : Obligations.StaleShadowIsUnobservable :=
  fun _ t _ h hstep => step_sameButStale h t hstep

end Sys2Proof.Machine
end

section
/-! PROOFS. What the issue of a command leaves alone, and who writes the result registers and the W1C flags
(10_state.md R24, R25, R31). -/

namespace Sys2Proof.Machine

/-! ### The issue of a command -/

/-- What the issue of a command leaves alone (R90). -/
theorem IssueEffect.frame {c d : Scp} {i : Instr} (e : IssueEffect c i d) :
    d.ctrl = c.ctrl ∧ d.ut = c.ut ∧ d.up = c.up ∧ d.b5 = c.b5 ∧ d.coefRaw = c.coefRaw ∧ d.shadow = c.shadow := by
  cases e with
  | legacyZero k => cases k <;> exact ⟨rfl, rfl, rfl, rfl, rfl, rfl⟩
  | _ => exact ⟨rfl, rfl, rfl, rfl, rfl, rfl⟩

theorem IssueEffect.command_of_busy {c d : Scp} {i : Instr} (e : IssueEffect c i d) (idle : c.eng = .idle)
    (busy : d.eng ≠ .idle) :
    i = .loadCal ∨ i = .loadUt ∨ i = .loadUp ∨ i = .compT ∨ i = .compP ∨ i = .compensate := by
  cases e with
  | nop => exact absurd idle busy
  | loadCal => simp
  | loadUt => simp
  | loadUp => simp
  | startT => simp
  | startP k => cases k <;> simp [CompKind.command]
  | _ => exact absurd rfl busy

/-- Settles O17: read off the effects of the issue of a command. -/
theorem onlyLoadsAndComputesMakeBusy : Obligations.OnlyLoadsAndComputesMakeBusy := by
  intro s t i idle hexec
  rw [exec_eq_issue, Host.Outcome.next.injEq] at hexec
  subst hexec
  rw [State.onScp_scp, Scp.unlessBusy_idle _ _ idle]
  have e := issueEffect i s.scp
  obtain ⟨hctrl, hut, hup, hb5, hcoef, hshadow⟩ := e.frame
  exact ⟨e.command_of_busy idle, hctrl, hut, hup, hb5, hcoef, hshadow, rfl, rfl, rfl, rfl⟩

/-! ### The result registers -/

/-- B5, T10 and P_COMP are the same. -/
def Scp.SameResults (c d : Scp) : Prop := d.b5 = c.b5 ∧ d.t10 = c.t10 ∧ d.pComp = c.pComp

theorem streamByte_sameResults (b : Byte) (c : Scp) {k : LoadKind} (loading : c.eng = .loading k) :
    c.SameResults (c.streamByte b) := by
  rw [c.streamByte_loading b k loading]
  split_ifs
  · cases k <;> exact ⟨rfl, rfl, rfl⟩
  · exact ⟨rfl, rfl, rfl⟩

theorem streamFail_sameResults (cause : FailCause) (c : Scp) : c.SameResults (c.streamFail cause) := by
  rcases c.streamFail_cases cause with ⟨k, -, e⟩ | ⟨-, e⟩ <;> rw [e]
  · cases k <;> exact ⟨rfl, rfl, rfl⟩
  · exact ⟨rfl, rfl, rfl⟩

/-- An issue leaves the results alone or is a legacy-zero completion (R207). -/
theorem IssueEffect.results {c d : Scp} {i : Instr} (e : IssueEffect c i d) :
    c.SameResults d ∨ ∃ k : CompKind, i = k.command ∧ c.status.calValid = false ∧ c.legacyZeroOn = true ∧
      d = c.accept.legacyZero k := by
  cases e with
  | legacyZero k empty on => exact .inr ⟨k, rfl, empty, on, rfl⟩
  | _ => exact .inl ⟨rfl, rfl, rfl⟩

/-- B5 and T10 are written by the temperature part of a compute (R144, R148). -/
theorem EngineEffect.temperature {c d : Scp} (e : EngineEffect c d) :
    (d.b5 = c.b5 ∧ d.t10 = c.t10) ∨ c.eng = .computing .t ∨ c.eng = .computing .tp := by
  cases e with
  | doneT _ _ h => exact .inr (.inl h)
  | doneTP _ _ _ h => exact .inr (.inr h)
  | _ => exact .inl ⟨rfl, rfl⟩

/-- P_COMP is written by the pressure part of a compute (R146, R148). -/
theorem EngineEffect.pressure {c d : Scp} (e : EngineEffect c d) :
    d.pComp = c.pComp ∨ c.eng = .computing .p ∨ c.eng = .computing .tp := by
  cases e with
  | doneP _ h => exact .inr (.inl h)
  | doneTP _ _ _ h => exact .inr (.inr h)
  | _ => exact .inl rfl

/-- The host's next access writes the command of a compute while the store is empty and legacy zero is on. -/
def State.LegacyZeroNext (s : State) (k : CompKind) : Prop :=
  (nextTurn s).1 = .host ∧ s.scp.eng = .idle ∧ s.scp.status.calValid = false ∧ s.scp.ctrl.getLsbD 8 = true ∧
    ∃ as, s.host = ⟨.write (encode k.command), 0x04, 4⟩ :: as

/-- Who can write a result register (R31). -/
theorem StepEffect.results {s : State} {d : Scp} (e : StepEffect s d) :
    s.scp.SameResults d ∨ (nextTurn s).1 = .reset ∨ ((nextTurn s).1 = .engine ∧ EngineEffect s.scp d) ∨
      ∃ k, s.LegacyZeroNext k ∧ d = s.scp.accept.legacyZero k := by
  cases e with
  | engine turn => exact .inr (.inr (.inl ⟨turn, engineEffect _⟩))
  | reset turn => exact .inr (.inl turn)
  | byte b loading => exact .inl (streamByte_sameResults b _ loading)
  | failure cause => exact .inl (streamFail_sameResults cause _)
  | issue turn access idle effect =>
    rcases effect.results with same | ⟨k, hk, empty, on, hd⟩
    · exact .inl same
    · rw [eq_encode_of_decode hk] at access
      exact .inr (.inr (.inr ⟨k, ⟨turn, idle, empty, on, _, access⟩, hd⟩))
  | _ => exact .inl ⟨rfl, rfl, rfl⟩

/-- Settles O56: a step leaves the results alone, or it is one of the three writers. -/
theorem onlyComputesWriteResults : Obligations.OnlyComputesWriteResults := by
  intro s t hstep
  rcases (stepEffect hstep).results with ⟨hb5, ht10, hpComp⟩ | reset | ⟨turn, e⟩ | ⟨k, hlegacy, hd⟩
  · exact ⟨absurd hb5, absurd ht10, absurd hpComp⟩
  · exact ⟨fun _ => .inl reset, fun _ => .inl reset, fun _ => .inl reset⟩
  · refine ⟨fun h => ?_, fun h => ?_, fun h => ?_⟩
    · exact .inr ⟨turn, e.temperature.resolve_left fun same => h same.1⟩
    · exact .inr (.inl ⟨turn, e.temperature.resolve_left fun same => h same.2⟩)
    · exact .inr (.inl ⟨turn, e.pressure.resolve_left h⟩)
  · rw [hd]
    cases k with
    | t => exact ⟨absurd rfl, fun _ => .inr (.inr (.inl hlegacy)), absurd rfl⟩
    | p => exact ⟨absurd rfl, absurd rfl, fun _ => .inr (.inr (.inl hlegacy))⟩
    | tp => exact ⟨absurd rfl, fun _ => .inr (.inr (.inr hlegacy)), fun _ => .inr (.inr (.inr hlegacy))⟩

/-! ### The W1C flags -/

/-- Every W1C flag that is set stays set (R24). -/
structure Status.FlagsKept (st st' : Status) : Prop where
  wrRej : st.wrRej = true → st'.wrRej = true
  irqDone : st.irqDone = true → st'.irqDone = true
  irqErr : st.irqErr = true → st'.irqErr = true
  strayFail : st.strayFail = true → st'.strayFail = true

theorem IssueEffect.flagsKept {c d : Scp} {i : Instr} (e : IssueEffect c i d) : c.status.FlagsKept d.status := by
  cases e with
  | clearCal => exact ⟨id, fun _ => rfl, id, id⟩
  | legacyZero k => cases k <;> exact ⟨id, fun _ => rfl, id, id⟩
  | fail => exact ⟨id, id, fun _ => rfl, id⟩
  | failB5 => exact ⟨id, id, fun _ => rfl, id⟩
  | _ => exact ⟨id, id, id, id⟩

theorem EngineEffect.flagsKept {c d : Scp} (e : EngineEffect c d) : c.status.FlagsKept d.status := by
  cases e with
  | none => exact ⟨id, id, id, id⟩
  | fail => exact ⟨id, id, fun _ => rfl, id⟩
  | failB5 => exact ⟨id, id, fun _ => rfl, id⟩
  | _ => exact ⟨id, fun _ => rfl, id, id⟩

theorem streamByte_flagsKept (b : Byte) (c : Scp) {k : LoadKind} (loading : c.eng = .loading k) :
    c.status.FlagsKept (c.streamByte b).status := by
  rw [c.streamByte_loading b k loading]
  split_ifs
  · cases k <;> exact ⟨id, fun _ => rfl, id, id⟩
  · exact ⟨id, id, id, id⟩

theorem streamFail_flagsKept (cause : FailCause) (c : Scp) : c.status.FlagsKept (c.streamFail cause).status := by
  rcases c.streamFail_cases cause with ⟨k, -, e⟩ | ⟨-, e⟩ <;> rw [e]
  · cases k <;> exact ⟨id, id, fun _ => rfl, id⟩
  · exact ⟨id, id, id, fun _ => rfl⟩

/-- Only a STATUS write and reset can clear a W1C flag (R27, R209). -/
theorem StepEffect.flags {s : State} {d : Scp} (e : StepEffect s d) :
    s.scp.status.FlagsKept d.status ∨ (nextTurn s).1 = .reset ∨
      ((nextTurn s).1 = .host ∧ ∃ w as, s.host = ⟨.write w, 0x08, 4⟩ :: as ∧ d.status = s.scp.status.w1c w) := by
  cases e with
  | engine => exact .inl (engineEffect _).flagsKept
  | reset turn => exact .inr (.inl turn)
  | rejected => exact .inl ⟨fun _ => rfl, id, id, id⟩
  | byte b loading => exact .inl (streamByte_flagsKept b _ loading)
  | failure cause => exact .inl (streamFail_flagsKept cause _)
  | issue _ _ _ effect => exact .inl effect.flagsKept
  | ack turn access => exact .inr (.inr ⟨turn, _, _, access, rfl⟩)
  | _ => exact .inl ⟨id, id, id, id⟩

/-- A flag that a STATUS write clears had its bit written with 1 (R27). -/
theorem bit_of_cleared {flag bit : Bool} (set : flag = true) (cleared : (flag && !bit) = false) : bit = true := by
  simpa [set] using cleared

/-- Settles O57: a step keeps the flags, or it is a reset, or the STATUS write whose bits are read off `w1c`. -/
theorem flagsStayUntilAcknowledged : Obligations.FlagsStayUntilAcknowledged := by
  intro s t hstep
  rcases (stepEffect hstep).flags with kept | reset | ⟨turn, w, as, access, hstatus⟩
  · refine ⟨fun h h' => ?_, fun h h' => ?_, fun h h' => ?_, fun h h' => ?_⟩
    · simp [kept.wrRej h] at h'
    · simp [kept.irqDone h] at h'
    · simp [kept.irqErr h] at h'
    · simp [kept.strayFail h] at h'
  · exact ⟨fun _ _ => .inl reset, fun _ _ => .inl reset, fun _ _ => .inl reset, fun _ _ => .inl reset⟩
  · rw [hstatus]
    have cleared {bit : Nat} (hbit : w.getLsbD bit = true) :
        (nextTurn s).1 = .host ∧ ∃ w as, s.host = ⟨.write w, 0x08, 4⟩ :: as ∧ w.getLsbD bit = true :=
      ⟨turn, w, as, access, hbit⟩
    exact ⟨fun h h' => .inr (cleared (bit_of_cleared h h')), fun h h' => .inr (cleared (bit_of_cleared h h')),
      fun h h' => .inr (cleared (bit_of_cleared h h')), fun h h' => .inr (cleared (bit_of_cleared h h'))⟩

end Sys2Proof.Machine
end

section
/-! PROOFS. The register map, the reset values, the outputs, and what a host turn does (10_state.md R21, R23, R40 to
R42). -/

namespace Sys2Proof.Machine

/-- Settles O28: the map, offset by offset. -/
theorem registerMap : Obligations.RegisterMap := by
  refine ⟨regAt_ctrl, regAt_cmd, regAt_status, regAt_ut, regAt_up, regAt_b5, regAt_t10, regAt_pComp, ?_, ?_, ?_⟩ <;>
    decide

/-- Settles O33: a STATUS write is not rejected, and is `Status.w1c`. -/
theorem statusWriteClearsFlags : Obligations.StatusWriteClearsFlags := by
  intro s w
  have hwrite := hostAccess_write s 0x08#8 w rfl
  rw [regAt_status, regWrite_of_ne _ _ _ (by decide)] at hwrite
  exact hwrite

/-- Settles O37. -/
theorem outputsIrqAndReady : Obligations.OutputsIrqAndReady := by
  intro c
  refine ⟨?_, c.sReady_eq_true⟩
  simp [Scp.irq, Scp.ieDone, Scp.ieErr]

/-- Settles O38: the reset state's values, one by one. -/
theorem resetValues : Obligations.ResetValues := by
  unfold Obligations.ResetValues
  decide

/-- A listed host turn with an access pending performs that access (R58). -/
theorem step_host {s : State} {ts : List Agent} {a : HostAccess} {as : List HostAccess}
    (hturns : s.turns = .host :: ts) (hhost : s.host = a :: as) :
    step s = hostAccess a { s with turns := ts, host := as } := by
  obtain ⟨c, turns, host, stream, readData⟩ := s
  obtain rfl : turns = .host :: ts := hturns
  obtain rfl : host = a :: as := hhost
  rfl

/-- A write of a word to CMD runs the instruction the word decodes to (R23, R192). -/
theorem hostAccess_cmd (s : State) (w : Word) : hostAccess ⟨.write w, 0x04, 4⟩ s = exec (decode w) s := by
  have hwrite := hostAccess_write s 0x04#8 w rfl
  rwa [regAt_cmd, regWrite_cmd] at hwrite

/-- Settles O5: decoding undoes encoding, so the word of an instruction runs that instruction. -/
theorem stepRunsTheDecodedCommand : Obligations.StepRunsTheDecodedCommand := by
  refine ⟨fun s ts a as hturns hhost => step_host hturns hhost, hostAccess_cmd, fun s i hi => ?_⟩
  have hword : BitVec.ofNat 32 ((encode i).toNat % 2 ^ 32) = encode i := by
    rw [Nat.mod_eq_of_lt (encode i).isLt, BitVec.ofNat_toNat, BitVec.setWidth_eq]
  rw [step_host (s := s.withFetchWord 32 (encode i).toNat) rfl rfl, hword]
  exact (hostAccess_cmd s (encode i)).trans (by rw [decode_encode hi])

end Sys2Proof.Machine
end

section
/-! PROOFS. Host accesses to the register window (20_memory.md R50 to R60): which are refused, what a read does,
which writes are rejected and which are ignored; and when a step has an answer. -/

namespace Sys2Proof.Machine

/-! ### Which accesses are defined -/

/-- An access that is no aligned word has no SCP step (R51). -/
theorem hostAccess_refused {a : HostAccess} (h : ¬ (a.size = 4 ∧ a.off.toNat % 4 = 0)) (s : State) :
    hostAccess a s = .refused .hostAccess :=
  if_neg (mt a.aligned_iff.1 h)

/-- An aligned word access always answers (R55, R56). -/
theorem hostAccess_next {a : HostAccess} (h : a.size = 4 ∧ a.off.toNat % 4 = 0) (s : State) :
    ∃ t, hostAccess a s = .next t := by
  rcases hostAccess_cases a s with ⟨unaligned, -⟩ | ⟨-, -, e⟩ | ⟨-, w, -, e⟩
  · rw [a.aligned_iff.2 h] at unaligned
    cases unaligned
  · exact ⟨_, e⟩
  · obtain ⟨f, hf⟩ := regWrite_next (regAt a.off) w s
    exact ⟨_, e.trans hf⟩

/-- Offset `off` of the window stands at platform address SCP_BASE + off (R50). -/
theorem HostAccess.atAddress_base_add (op : HostOp) (off : BitVec 8) (size : Nat) :
    HostAccess.atAddress op (Config.scpBase + off.toNat) size = some ⟨op, off, size⟩ := by
  have inside : Config.scpBase ≤ Config.scpBase + off.toNat ∧
      Config.scpBase + off.toNat < Config.scpBase + Config.windowSize :=
    ⟨Nat.le_add_right _ _, Nat.add_lt_add_left off.isLt _⟩
  rw [HostAccess.atAddress, if_pos inside, Nat.add_sub_cancel_left, BitVec.ofNat_toNat, BitVec.setWidth_eq]

/-- An address below or above the window makes no access (R50, R67). -/
theorem HostAccess.atAddress_outside (op : HostOp) {addr : Nat} (size : Nat)
    (h : addr < Config.scpBase ∨ Config.scpBase + 256 ≤ addr) : HostAccess.atAddress op addr size = none := by
  refine if_neg fun ⟨above, below⟩ => ?_
  rw [Config.windowSize] at below
  omega

/-- Settles O36: the refusal, and the window's addresses from inside and from outside. -/
theorem onlyAlignedWordsReachTheWindow : Obligations.OnlyAlignedWordsReachTheWindow :=
  ⟨fun s _ h => hostAccess_refused h s, HostAccess.atAddress_base_add,
    fun op _ size h => HostAccess.atAddress_outside op size h⟩

/-- Settles O6: the only turn that can lack an answer is the host's with an access pending, and it answers exactly
when that access is an aligned word. -/
theorem stepStopsOnlyOnBadAccess : Obligations.StepStopsOnlyOnBadAccess := by
  intro s
  obtain ⟨c, turns, host, stream, readData⟩ := s
  match turns, host with
  | .host :: ts, a :: as =>
    by_cases word : a.size = 4 ∧ a.off.toNat % 4 = 0
    · refine .inl ⟨hostAccess_next word ⟨c, ts, as, stream, readData⟩, ?_⟩
      rintro _ _ _ - ⟨⟩
      exact word
    · exact .inr ⟨hostAccess_refused word ⟨c, ts, as, stream, readData⟩, ts, a, as, rfl, rfl, word⟩
  | .host :: ts, [] => exact .inl ⟨⟨_, rfl⟩, nofun⟩
  | [], _ => exact .inl ⟨⟨_, rfl⟩, nofun⟩
  | .stream :: ts, _ => exact .inl ⟨⟨_, rfl⟩, nofun⟩
  | .engine :: ts, _ => exact .inl ⟨⟨_, rfl⟩, nofun⟩
  | .reset :: ts, _ => exact .inl ⟨⟨_, rfl⟩, nofun⟩

/-! ### Reads -/

/-- Settles O29: the value read depends on the SCP alone, which the read leaves as it is. -/
theorem hostReadsHaveNoSideEffects : Obligations.HostReadsHaveNoSideEffects :=
  fun s off aligned => ⟨s.scp.read (regAt off), hostAccess_read s off aligned, hostAccess_read _ off aligned⟩

/-! ### Rejected and ignored writes -/

/-- A rejected write, as a step of the machine: WR_REJ alone changes (R54). -/
theorem State.onScp_unlessBusy_busy (f : Scp → Scp) {s : State} (busy : s.scp.eng ≠ .idle) :
    s.onScp (Scp.unlessBusy f) =
      { s with scp := { s.scp with status := { s.scp.status with wrRej := true } } } := by
  rw [State.onScp, Scp.unlessBusy_busy f s.scp busy]
  rfl

/-- Settles O16: every command acts through the busy rejection. -/
theorem busyRejectsEveryCommand : Obligations.BusyRejectsEveryCommand := by
  intro s i busy
  rw [exec_eq_issue, State.onScp_unlessBusy_busy _ busy]

/-- A write at an offset whose register is known, other than CMD. -/
theorem hostAccess_write_of_ne (s : State) {off : BitVec 8} {r : Reg} (w : Word) (aligned : off.toNat % 4 = 0)
    (hr : regAt off = r) (hne : r ≠ .cmd) :
    hostAccess ⟨.write w, off, 4⟩ s = .next (s.onScp (Scp.write r w)) := by
  rw [hostAccess_write s off w aligned, hr, regWrite_of_ne r w s hne]

/-- A write of a read-only or reserved offset changes nothing (R53). -/
theorem hostAccess_write_readOnly (s : State) (w : Word) (off : BitVec 8) (aligned : off.toNat % 4 = 0)
    (readOnly : 0x14 ≤ off.toNat) : hostAccess ⟨.write w, off, 4⟩ s = .next s := by
  rw [hostAccess_write s off w aligned]
  rcases regAt_readOnly off aligned readOnly with e | e | e | ⟨i, e⟩ | ⟨k, e⟩ | e <;> rw [e] <;> rfl

/-- A write that BUSY = 1 rejects (R54). -/
theorem hostAccess_write_rejected {s : State} (busy : s.scp.eng ≠ .idle) {off : BitVec 8} {r : Reg} {w : Word}
    {f : Scp → Scp} (aligned : off.toNat % 4 = 0) (hr : regAt off = r) (hne : r ≠ .cmd)
    (guarded : Scp.write r w = Scp.unlessBusy f) :
    hostAccess ⟨.write w, off, 4⟩ s =
      .next { s with scp := { s.scp with status := { s.scp.status with wrRej := true } } } := by
  rw [hostAccess_write_of_ne s w aligned hr hne, guarded, State.onScp_unlessBusy_busy f busy]

/-- Settles O31: CTRL, CMD, UT and UP are written through the busy rejection, the others are not. -/
theorem busyRejectsRegisterWrites : Obligations.BusyRejectsRegisterWrites := by
  intro s w busy
  refine ⟨?_, statusWriteClearsFlags s w, hostAccess_write_readOnly s w⟩
  rintro off (rfl | rfl | rfl | rfl)
  · exact hostAccess_write_rejected busy (f := Scp.writeCtrl w) rfl regAt_ctrl nofun rfl
  · exact (hostAccess_cmd s w).trans (busyRejectsEveryCommand s (decode w) busy)
  · exact hostAccess_write_rejected busy (f := Scp.writeUt w) rfl regAt_ut nofun rfl
  · exact hostAccess_write_rejected busy (f := Scp.writeUp w) rfl regAt_up nofun rfl

/-! ### Reserved bits of a written word -/

/-- A bit that a mask keeps. -/
theorem getLsbD_and_mask (w : Word) {m : Word} {i : Nat} (kept : m.getLsbD i = true) :
    (w &&& m).getLsbD i = w.getLsbD i := by
  rw [BitVec.getLsbD_and, kept, Bool.and_true]

/-- The low bits of a word, when a mask keeps all of them. -/
theorem extractLsb'_and_mask (w : Word) {m : Word} {n : Nat} (kept : ∀ i < n, m.getLsbD i = true) :
    (w &&& m).extractLsb' 0 n = w.extractLsb' 0 n := by
  apply BitVec.eq_of_getLsbD_eq
  intro i hi
  rw [BitVec.getLsbD_extractLsb', BitVec.getLsbD_extractLsb', Nat.zero_add, getLsbD_and_mask w (kept i hi)]

/-- CTRL keeps its defined fields only (R194). -/
theorem Scp.writeCtrl_mask (w : Word) : Scp.writeCtrl (w &&& 0x00000133) = Scp.writeCtrl w := by
  funext c
  rw [Scp.writeCtrl, Scp.writeCtrl, ctrlMask, BitVec.and_assoc, BitVec.and_self]

/-- STATUS looks at bits 8 to 11 only (R27). -/
theorem Scp.ackStatus_mask (w : Word) : Scp.ackStatus (w &&& 0x00000F00) = Scp.ackStatus w := by
  funext c
  simp only [Scp.ackStatus, Status.w1c, getLsbD_and_mask w (m := 0x00000F00) (i := 8) rfl,
    getLsbD_and_mask w (m := 0x00000F00) (i := 9) rfl, getLsbD_and_mask w (m := 0x00000F00) (i := 10) rfl,
    getLsbD_and_mask w (m := 0x00000F00) (i := 11) rfl]

/-- UT takes bits 15:0 only (R126). -/
theorem Scp.writeUt_mask (w : Word) : Scp.writeUt (w &&& 0x0000FFFF) = Scp.writeUt w := by
  funext c
  rw [Scp.writeUt, Scp.writeUt, extractLsb'_and_mask w (by decide)]

/-- UP takes bits 18:0 only (R127). -/
theorem Scp.writeUp_mask (w : Word) : Scp.writeUp (w &&& 0x0007FFFF) = Scp.writeUp w := by
  funext c
  rw [Scp.writeUp, Scp.writeUp, extractLsb'_and_mask w (by decide)]

/-- Two words that a register takes alike are one write. -/
theorem hostAccess_write_congr (s : State) {off : BitVec 8} {r : Reg} {w v : Word} (aligned : off.toNat % 4 = 0)
    (hr : regAt off = r) (hne : r ≠ .cmd) (same : Scp.write r v = Scp.write r w) :
    hostAccess ⟨.write w, off, 4⟩ s = hostAccess ⟨.write v, off, 4⟩ s := by
  rw [hostAccess_write_of_ne s w aligned hr hne, hostAccess_write_of_ne s v aligned hr hne, same]

/-- Settles O35: the offsets from 0x14 on ignore a write, and each writable register drops the reserved bits. -/
theorem readOnlyWritesAreIgnored : Obligations.ReadOnlyWritesAreIgnored := by
  intro s w
  refine ⟨hostAccess_write_readOnly s w, ?_, ?_, ?_, ?_⟩
  · exact hostAccess_write_congr s rfl regAt_ctrl nofun (congrArg Scp.unlessBusy (Scp.writeCtrl_mask w))
  · exact hostAccess_write_congr s rfl regAt_status nofun (Scp.ackStatus_mask w)
  · exact hostAccess_write_congr s rfl regAt_ut nofun (congrArg Scp.unlessBusy (Scp.writeUt_mask w))
  · exact hostAccess_write_congr s rfl regAt_up nofun (congrArg Scp.unlessBusy (Scp.writeUp_mask w))

end Sys2Proof.Machine
end

section
/-! PROOFS. The stream port (20_memory.md R61, R62): a byte waits or is taken, and a failure outside a load is
stray. -/

namespace Sys2Proof.Machine

section
variable {s : State} {ts : List Agent} {b : Byte} {es : List StreamEvent}

/-- A stream turn with a byte that no load waits for leaves the byte at the transport (R61; log 17). -/
theorem step_stream_byte_waits (hturns : s.turns = .stream :: ts) (hstream : s.stream = .byte b :: es)
    (noLoad : ∀ k, s.scp.eng ≠ .loading k) : step s = .next { s with turns := ts } := by
  obtain ⟨c, turns, host, stream, readData⟩ := s
  obtain rfl : turns = .stream :: ts := hturns
  obtain rfl : stream = .byte b :: es := hstream
  have notReady : ¬ c.sReady = true := fun ready => (c.sReady_eq_true.1 ready).elim noLoad
  exact congrArg Host.Outcome.next (if_neg notReady)

/-- A stream turn with a byte that a load waits for takes it (R61). -/
theorem step_stream_byte_taken (hturns : s.turns = .stream :: ts) (hstream : s.stream = .byte b :: es)
    {k : LoadKind} (loading : s.scp.eng = .loading k) :
    step s = .next { s with turns := ts, stream := es, scp := s.scp.streamByte b } := by
  obtain ⟨c, turns, host, stream, readData⟩ := s
  obtain rfl : turns = .stream :: ts := hturns
  obtain rfl : stream = .byte b :: es := hstream
  exact congrArg Host.Outcome.next (if_pos (c.sReady_eq_true.2 ⟨k, loading⟩))

/-- A stream turn with a failure always takes it (R62). -/
theorem step_stream_fail {cause : FailCause} (hturns : s.turns = .stream :: ts)
    (hstream : s.stream = .fail cause :: es) :
    step s = .next { s with turns := ts, stream := es, scp := s.scp.streamFail cause } := by
  obtain ⟨c, turns, host, stream, readData⟩ := s
  obtain rfl : turns = .stream :: ts := hturns
  obtain rfl : stream = .fail cause :: es := hstream
  rfl

end

theorem LoadKind.frameBytes_le (k : LoadKind) : k.frameBytes ≤ 22 := by
  cases k <;> decide

/-- While another byte is to come, the count goes up by one without wrapping (R36). -/
theorem Scp.countByte_n_val {c : Scp} {k : LoadKind} (more : c.n.val + 1 < k.frameBytes) :
    c.countByte.n.val = c.n.val + 1 := by
  have hle := k.frameBytes_le
  rw [countByte_n, Fin.val_add_one_of_lt' (by omega)]

/-- A byte that is not the last of its load is stored and counted (R61, R101). -/
theorem Scp.streamByte_of_more {c : Scp} {k : LoadKind} (b : Byte) (loading : c.eng = .loading k)
    (more : c.n.val + 1 < k.frameBytes) : c.streamByte b = (c.storeByte b).countByte := by
  rw [c.streamByte_loading b k loading, if_neg (by omega)]

/-- A stored byte changes its own cell of SHADOW alone (R36). -/
theorem Scp.storeByte_shadow_ne (c : Scp) (b : Byte) {j : Fin 22} (hj : j ≠ c.n) :
    (c.storeByte b).shadow[j] = c.shadow[j] :=
  Vector.getElem_set_ne c.n.isLt j.isLt fun h => hj (Fin.ext h.symm)

/-- Settles O18: the byte waits unless `s_ready`; taken before the last, it is stored and counted. -/
theorem streamByteIsTakenOrWaits : Obligations.StreamByteIsTakenOrWaits := by
  intro s ts b es hturns hstream
  refine ⟨step_stream_byte_waits hturns hstream, fun k loading more => ?_⟩
  have taken := step_stream_byte_taken hturns hstream loading
  rw [Scp.streamByte_of_more b loading more] at taken
  exact ⟨_, taken, rfl, rfl, rfl, rfl, rfl, Scp.countByte_n_val (c := s.scp.storeByte b) more,
    Vector.getElem_set_self s.scp.n.isLt, fun _ hj => s.scp.storeByte_shadow_ne b hj⟩

/-- Settles O24: outside a load a stream failure is a stray one. -/
theorem strayFailureSetsItsBitOnly : Obligations.StrayFailureSetsItsBitOnly := by
  intro s ts cause es hturns hstream noLoad
  rw [step_stream_fail hturns hstream]
  rcases s.scp.streamFail_cases cause with ⟨k, loading, -⟩ | ⟨-, stray⟩
  · exact absurd loading (noLoad k)
  · rw [stray]
    rfl

end Sys2Proof.Machine
end

section
/-! PROOFS. The words of the opcode map and its rows (30_encoding.md R80 to R85). -/

namespace Sys2Proof

/-- Settles O1: the word's fields are the instruction's, and decoding them gives it back. -/
theorem decodeEncodeRoundTrip : Obligations.DecodeEncodeRoundTrip := fun _ => decode_encode

/-- Settles O2: the instruction decoded is well formed and has the word's fields. -/
theorem encodeDecodeRoundTrip : Obligations.EncodeDecodeRoundTrip :=
  fun w => ⟨decode_wellFormed w, encode_decode w⟩

/-- Settles O4: twelve words, each decoded by evaluation. -/
theorem wordsOfTheOpcodeMapDecode : Obligations.WordsOfTheOpcodeMapDecode := by
  unfold Obligations.WordsOfTheOpcodeMapDecode
  decide

/-! ### Decoding by the word's number -/

/-- OP is the word mod 256 (R80), the reduction left to `BitVec.ofNat`. -/
theorem opField_eq_ofNat (w : Word) : opField w = BitVec.ofNat 8 w.toNat := by
  apply BitVec.eq_of_toNat_eq
  rw [opField, BitVec.extractLsb'_toNat, Nat.shiftRight_zero, BitVec.toNat_ofNat]

/-- OP is the word mod 256 (R80). -/
theorem opField_eq_ofNat_mod (w : Word) : opField w = BitVec.ofNat 8 (w.toNat % 256) := by
  rw [opField_eq_ofNat]
  exact BitVec.eq_of_toNat_eq (Nat.mod_mod _ _).symm

/-- RSV is the word div 256 (R80). -/
theorem rsvField_eq_ofNat (w : Word) : rsvField w = BitVec.ofNat 24 (w.toNat / 256) := by
  apply BitVec.eq_of_toNat_eq
  rw [rsvField, BitVec.extractLsb'_toNat, Nat.shiftRight_eq_div_pow, BitVec.toNat_ofNat]

/-- RSV = 0 exactly for the words below 256 (R80, R82). -/
theorem rsvField_eq_zero_iff (w : Word) : rsvField w = 0 ↔ w.toNat / 256 = 0 := by
  have hw := w.isLt
  rw [rsvField_eq_ofNat, ← BitVec.toNat_inj, BitVec.toNat_ofNat]
  exact (Nat.mod_eq_of_lt (by omega)).congr_left

theorem decode_of_rsv_ne_zero {w : Word} (h : rsvField w ≠ 0) :
    decode w = .illegalRsv (rsvField w) (opField w) := if_pos h

theorem decode_of_rsv_eq_zero {w : Word} (h : rsvField w = 0) : decode w = decodeOp (opField w) :=
  if_neg (not_not.2 h)

/-- An unassigned OP given by its number (R83). -/
theorem decodeOp_ofNat_of_unassigned {k : Nat} (hlow : 8 ≤ k) (hhigh : k < 256) :
    decodeOp (BitVec.ofNat 8 k) = .illegalOp (BitVec.ofNat 8 k) := by
  apply decodeOp_of_unassigned
  rwa [BitVec.toNat_ofNat, Nat.mod_eq_of_lt hhigh]

/-! ### The rows of the opcode table -/

/-- A row for the highest set bit `k` accepts the words whose binary logarithm is `k` (R85). -/
theorem highestBitRow_accepts_iff (name : String) {k : Nat} (hpos : k ≠ 0) (hk : k < 32) (w : Word) :
    (highestBitRow name k).accepts w = true ↔ Nat.log 2 w.toNat = k := by
  have hmask : BitVec.ofNat 32 (2 ^ 32 - 2 ^ k) = BitVec.allOnes 32 <<< k := by
    clear hpos
    decide +revert
  have hword : w.toNat / 2 ^ k * 2 ^ k < 2 ^ 32 := (Nat.div_mul_le_self _ _).trans_lt w.isLt
  have hpattern : 2 ^ k < 2 ^ 32 := Nat.pow_lt_pow_right (by decide) hk
  calc (highestBitRow name k).accepts w = true
      ↔ w >>> k <<< k = BitVec.ofNat 32 (2 ^ k) := by
        rw [OpcodeRow.accepts, highestBitRow, hmask, beq_iff_eq, BitVec.shiftLeft_ushiftRight]
    _ ↔ w.toNat / 2 ^ k * 2 ^ k = 1 * 2 ^ k := by
        rw [← BitVec.toNat_inj, BitVec.toNat_shiftLeft, BitVec.toNat_ushiftRight, BitVec.toNat_ofNat,
          Nat.shiftLeft_eq, Nat.shiftRight_eq_div_pow, Nat.mod_eq_of_lt hword, Nat.mod_eq_of_lt hpattern,
          Nat.one_mul]
    _ ↔ w.toNat / 2 ^ k = 1 := Nat.mul_left_inj (Nat.two_pow_pos k).ne'
    _ ↔ Nat.log 2 w.toNat = k := by
        rw [Nat.log_eq_iff (.inl hpos), Nat.pow_succ, Nat.div_eq_iff (Nat.two_pow_pos k)]
        have := Nat.two_pow_pos k
        omega

/-- The mnemonics of the rows that accept a word. -/
def acceptedMnemonics (rows : List OpcodeRow) (w : Word) : List String :=
  (rows.filter fun r => r.accepts w).map OpcodeRow.mnemonic

theorem acceptedMnemonics_singleton (r : OpcodeRow) (w : Word) :
    acceptedMnemonics [r] w = if r.accepts w = true then [r.mnemonic] else [] := by
  cases h : r.accepts w <;> simp [acceptedMnemonics, h]

theorem acceptedMnemonics_append (rows rows' : List OpcodeRow) (w : Word) :
    acceptedMnemonics (rows ++ rows') w = acceptedMnemonics rows w ++ acceptedMnemonics rows' w := by
  rw [acceptedMnemonics, List.filter_append, List.map_append]
  rfl

/-- Exactly one row accepts a word, and its mnemonic is `m`. -/
theorem acceptedMnemonics_eq_singleton_iff (rows : List OpcodeRow) (w : Word) (m : String) :
    acceptedMnemonics rows w = [m] ↔ ∃ r, rows.filter (fun r => r.accepts w) = [r] ∧ r.mnemonic = m :=
  List.map_eq_singleton_iff

/-- Of the rows for the highest set bits `b` to `b + n - 1`, one accepts a word whose highest set bit is among
these, and none accepts another word (R85). -/
theorem acceptedMnemonics_highestBitRows (name : String) {b n : Nat} (hpos : b ≠ 0) (hle : b + n ≤ 32)
    (w : Word) :
    acceptedMnemonics ((List.range n).map fun j => highestBitRow name (b + j)) w =
      if b ≤ Nat.log 2 w.toNat ∧ Nat.log 2 w.toNat < b + n then [name] else [] := by
  induction n with
  | zero => rw [if_neg (by omega)]; rfl
  | succ n ih =>
    have haccepts := highestBitRow_accepts_iff name (k := b + n) (by omega) (by omega) w
    rw [List.range_succ, List.map_append, acceptedMnemonics_append, ih (by omega), List.map_singleton,
      acceptedMnemonics_singleton, if_congr haccepts rfl rfl]
    by_cases hlast : Nat.log 2 w.toNat = b + n
    · rw [if_neg (by omega), if_pos hlast, if_pos (by omega)]
      rfl
    · rw [if_neg hlast, List.append_nil]
      exact if_congr (by omega) rfl rfl

/-- A command's row accepts the command's own word alone, and these words are below 8 (R81). -/
theorem acceptedMnemonics_commandRows {w : Word} (h : 8 ≤ w.toNat) : acceptedMnemonics commandRows w = [] := by
  have hrows : ∀ r ∈ commandRows, r.mask = BitVec.allOnes 32 ∧ r.pattern.toNat < 8 := by decide
  rw [acceptedMnemonics, List.map_eq_nil_iff, List.filter_eq_nil_iff]
  intro r hr haccepts
  obtain ⟨hmask, hlt⟩ := hrows r hr
  rw [OpcodeRow.accepts, hmask, BitVec.and_allOnes, beq_iff_eq] at haccepts
  rw [← haccepts] at hlt
  omega

/-- The eight words below 8 are the commands, each with its own row (R81). -/
theorem acceptedMnemonics_of_command {w : Word} (h : w.toNat < 8) :
    acceptedMnemonics opcodeRows w = [(decode w).mnemonic] := by
  have hcommands : ∀ k : Fin 8, acceptedMnemonics opcodeRows (BitVec.ofNat 32 k) =
      [(decode (BitVec.ofNat 32 k)).mnemonic] := by decide
  simpa using hcommands ⟨w.toNat, h⟩

/-- Every other word has its row by its highest set bit: below bit 8 an unassigned OP, from bit 8 on a reserved
field that is not 0 (R82, R83). -/
theorem acceptedMnemonics_of_illegal {w : Word} (h : 8 ≤ w.toNat) :
    acceptedMnemonics opcodeRows w = [(decode w).mnemonic] := by
  have hlow : 3 ≤ Nat.log 2 w.toNat := Nat.le_log_of_pow_le (by decide) h
  have hhigh : Nat.log 2 w.toNat < 32 := Nat.log_lt_of_lt_pow (by omega) w.isLt
  rw [opcodeRows, acceptedMnemonics_append, acceptedMnemonics_append, acceptedMnemonics_commandRows h,
    illegalOpRows, illegalRsvRows, acceptedMnemonics_highestBitRows _ (by decide) (by decide),
    acceptedMnemonics_highestBitRows _ (by decide) (by decide)]
  have hbit : Nat.log 2 w.toNat < 8 ↔ w.toNat < 256 := Nat.log_lt_iff_lt_pow (by decide) (by omega)
  have hrsv := rsvField_eq_zero_iff w
  by_cases hw : w.toNat < 256
  · rw [if_pos (by omega), if_neg (by omega), decode_of_rsv_eq_zero (hrsv.2 (by omega)), opField_eq_ofNat,
      decodeOp_ofNat_of_unassigned h hw]
    rfl
  · rw [if_neg (by omega), if_pos (by omega), decode_of_rsv_ne_zero (mt hrsv.1 (by omega))]
    rfl

/-- Settles O3: RSV and OP are the word div and mod 256; a word below 8 has its command's row, any other word the
row of its highest set bit. -/
theorem opcodeMapIsTotalAndUnambiguous : Obligations.OpcodeMapIsTotalAndUnambiguous := by
  refine ⟨fun w => ?_, rfl, fun w => ?_⟩
  · have hrsv := rsvField_eq_zero_iff w
    split
    next h => rw [decode_of_rsv_ne_zero (mt hrsv.1 h), rsvField_eq_ofNat, opField_eq_ofNat]
    next h =>
      rw [decode_of_rsv_eq_zero (hrsv.2 (not_not.1 h)), opField_eq_ofNat_mod]
      have hlt : w.toNat % 256 < 256 := Nat.mod_lt _ (by decide)
      generalize w.toNat % 256 = k at hlt
      match k with
      | 0 | 1 | 2 | 3 | 4 | 5 | 6 | 7 => rfl
      | k + 8 => exact decodeOp_ofNat_of_unassigned (Nat.le_add_left 8 k) hlt
  · rw [← acceptedMnemonics_eq_singleton_iff]
    exact (Nat.lt_or_ge w.toNat 8).elim acceptedMnemonics_of_command acceptedMnemonics_of_illegal

end Sys2Proof
end

section
/-! PROOFS. The values of a pressure frame and of the coefficients (30_encoding.md R87, R89). -/

namespace Sys2Proof.Machine

/-- asr of a natural number is its quotient by the power of two (R11). -/
theorem asr_natCast (a k : Nat) : asr (a : Int) k = ((a / 2 ^ k : Nat) : Int) := by
  rw [asr_eq_fdiv, fdiv, Int.ofNat_fdiv, Nat.cast_pow, Nat.cast_ofNat]

/-- The pattern of a natural number that fits (R10). -/
theorem toNat_bits_natCast {n a : Nat} (h : a < 2 ^ n) : (bits n (a : Int)).toNat = a := by
  rw [bits, BitVec.ofInt_natCast, BitVec.toNat_ofNat, Nat.mod_eq_of_lt h]

/-- The 24-bit reading of a pressure frame, as a natural number (R89). -/
theorem raw24_eq_natCast (msb lsb xlsb : Byte) :
    raw24 msb lsb xlsb = ((msb.toNat * 2 ^ 16 + lsb.toNat * 2 ^ 8 + xlsb.toNat : Nat) : Int) := by
  simp [raw24, zext]

/-- Dropping the low 8 − oss bits of a 24-bit number leaves 16 + oss bits (R89). -/
theorem shifted24_lt {a : Nat} (ha : a < 2 ^ 24) {oss : Nat} (hoss : oss ≤ 8) :
    a / 2 ^ (8 - oss) < 2 ^ (16 + oss) := by
  apply Nat.div_lt_of_lt_mul
  rwa [← Nat.pow_add, show 8 - oss + (16 + oss) = 24 by omega]

/-- Settles O25: the shifted reading has at most 16 + 3 bits, so UP's 19 bits hold all of it. -/
theorem upFrameIsTheShiftedReading : Obligations.UpFrameIsTheShiftedReading := by
  intro msb lsb xlsb oss
  have hraw : msb.toNat * 2 ^ 16 + lsb.toNat * 2 ^ 8 + xlsb.toNat < 2 ^ 24 := by
    have hmsb := msb.isLt
    have hlsb := lsb.isLt
    have hxlsb := xlsb.isLt
    omega
  have hoss : oss.toNat ≤ 3 := Nat.le_of_lt_succ oss.isLt
  have hup := shifted24_lt hraw (hoss.trans (by decide))
  have hfits : 2 ^ (16 + oss.toNat) ≤ 2 ^ 19 := Nat.pow_le_pow_right (by decide) (by omega)
  rw [upFrame, raw24_eq_natCast, asr_natCast, toNat_bits_natCast (hup.trans_le hfits)]
  exact ⟨rfl, hup⟩

/-- AC4, AC5 and AC6 are the unsigned coefficients (R32). -/
theorem coefUnsigned_iff (i : Fin 11) : coefUnsigned i = true ↔ i = 3 ∨ i = 4 ∨ i = 5 := by
  simp [coefUnsigned, or_assoc]

/-- "If the unsigned combination exceeds 32767 subtract 65536" (R87). -/
theorem sext_eq_of_pattern (v : BitVec 16) :
    sext v = if v.toNat > 32767 then (v.toNat : Int) - 65536 else (v.toNat : Int) := by
  rw [sext, BitVec.toInt_eq_toNat_cond]
  split <;> split <;> omega

/-- Settles O27: the coefficient's class picks the reading, and the signed one is R87's. -/
theorem coefficientClasses : Obligations.CoefficientClasses := by
  intro c i
  rw [Scp.coef, coefValue, sext_eq_of_pattern]
  exact if_congr (coefUnsigned_iff i) rfl rfl

end Sys2Proof.Machine
end

section
/-! PROOFS. The calibration-coefficient loader (40_calibration_loader.md R100 to R106): its commands, the end of a
load, the coefficients' patterns, and who writes the store. -/

namespace Sys2Proof.Machine

/-! ### The commands -/

/-- A command issued while idle acts by its issue (R192). -/
theorem exec_of_idle {s : State} (idle : s.scp.eng = .idle) (i : Instr) :
    exec i s = .next { s with scp := s.scp.issue i } := by
  rw [exec_eq_issue, State.onScp, Scp.unlessBusy_idle _ _ idle]

/-- Success without a load or compute in progress writes IRQ_DONE alone (R206). -/
theorem Scp.complete_of_idle {c : Scp} (idle : c.eng = .idle) :
    c.complete = { c with status := { c.status with irqDone := true } } := by
  rw [Scp.complete, ← idle]

/-- Settles O9: the issue of LOAD_CAL is acceptance, B5_VALID and the start of a load. -/
theorem loadCalStartsALoad : Obligations.LoadCalStartsALoad :=
  fun _ idle => exec_of_idle idle .loadCal

/-- Settles O10: CLEAR_CAL's `complete` finds ENG idle already. -/
theorem clearCalEmptiesTheStore : Obligations.ClearCalEmptiesTheStore := by
  intro s idle
  rw [exec_of_idle idle, Scp.issue, Scp.issueClearCal, Scp.complete_of_idle]
  · rfl
  · exact idle

/-! ### The end of a load -/

/-- The last byte of a load is stored and commits it (R61). -/
theorem Scp.streamByte_of_last {c : Scp} {k : LoadKind} (b : Byte) (loading : c.eng = .loading k)
    (last : c.n.val = k.frameBytes - 1) : c.streamByte b = (c.storeByte b).commit k := by
  rw [c.streamByte_loading b k loading, if_pos last]

/-- A stream failure in a load fails that load (R62). -/
theorem Scp.streamFail_loading {c : Scp} {k : LoadKind} (cause : FailCause) (loading : c.eng = .loading k) :
    c.streamFail cause = c.loadFail k cause := by
  simp [Scp.streamFail, loading]

/-- The number of a byte pair (R63). -/
theorem bytePair_toNat (msb lsb : Byte) : (bytePair msb lsb).toNat = 256 * msb.toNat + lsb.toNat := by
  rw [bytePair, BitVec.toNat_append, ← Nat.shiftLeft_add_eq_or_of_lt lsb.isLt, Nat.shiftLeft_eq, Nat.mul_comm]

theorem calFrame_getElem (sh : Vector Byte 22) {i : Nat} (hi : i < 11) :
    (calFrame sh)[i] = bytePair sh[2 * i] sh[2 * i + 1] := by
  simp [calFrame]

/-- Settles O19: the 22nd byte completes the eleventh pair, and the other ten pairs do not hold it. -/
theorem loadCalCommit : Obligations.LoadCalCommit := by
  intro s ts b es hturns hstream loading last
  have taken := step_stream_byte_taken hturns hstream loading
  rw [Scp.streamByte_of_last b loading last] at taken
  have hshadow : (s.scp.storeByte b).shadow = s.scp.shadow.set 21 b := by
    simp only [Scp.storeByte_shadow, last]
  have hcoef (i : Nat) (hi : i < 11) : ((s.scp.storeByte b).commit .cal).coefRaw[i].toNat =
      256 * (s.scp.shadow.set 21 b)[2 * i].toNat + (s.scp.shadow.set 21 b)[2 * i + 1].toNat := by
    rw [Scp.commit, Scp.commitCal, Scp.complete_coefRaw, calFrame_getElem, bytePair_toNat, hshadow]
  refine ⟨_, taken, rfl, rfl, rfl, rfl, ?_, fun i => ?_, ?_⟩
  · rw [← hshadow]
    rfl
  · rw [hcoef i.val (by omega), Vector.getElem_set_ne _ _ (by omega), Vector.getElem_set_ne _ _ (by omega)]
  · rw [hcoef 10 (by decide), Vector.getElem_set_ne _ _ (by decide), Vector.getElem_set_self]

/-- Settles O22: the failure of a calibration load, with its cause as ERR_SUB. -/
theorem loadCalFailure : Obligations.LoadCalFailure := by
  intro s ts cause es hturns hstream loading
  rw [step_stream_fail hturns hstream, Scp.streamFail_loading cause loading]
  cases cause <;> rfl

/-! ### The patterns of the coefficients -/

/-- The two bytes of a byte pair (R104). -/
theorem patternBytes_bytePair (msb lsb : Byte) : patternBytes (bytePair msb lsb) = (msb, lsb) :=
  Prod.ext BitVec.extractLsb'_append_eq_left BitVec.extractLsb'_append_eq_right

/-- Either reading of a pattern keeps it modulo 2^16 (R10, R104). -/
theorem coefPattern_coefValue (i : Fin 11) (v : BitVec 16) : coefPattern (coefValue i v) = v := by
  unfold coefPattern bits coefValue
  split
  · rw [zext, BitVec.ofInt_natCast, BitVec.ofNat_toNat, BitVec.setWidth_eq]
  · rw [sext, BitVec.ofInt_toInt]

/-- Settles O26: a value has its pattern back, and a pattern its two bytes. -/
theorem calibrationDecodingIsReversible : Obligations.CalibrationDecodingIsReversible := by
  intro sh i
  rw [coefPattern_coefValue, Fin.getElem_fin, calFrame_getElem, patternBytes_bytePair]

/-! ### The store -/

/-- COEF_RAW and CAL_VALID are the same. -/
def Scp.SameStore (c d : Scp) : Prop := d.coefRaw = c.coefRaw ∧ d.status.calValid = c.status.calValid

/-- Of all commands, only CLEAR_CAL's issue writes the store (R105). -/
theorem IssueEffect.store {c d : Scp} {i : Instr} (e : IssueEffect c i d) : c.SameStore d ∨ i = .clearCal := by
  cases e with
  | clearCal => exact .inr rfl
  | legacyZero k => cases k <;> exact .inl ⟨rfl, rfl⟩
  | _ => exact .inl ⟨rfl, rfl⟩

theorem EngineEffect.sameStore {c d : Scp} (e : EngineEffect c d) : c.SameStore d := by
  cases e <;> exact ⟨rfl, rfl⟩

/-- Of the bytes of all loads, only the 22nd of a calibration load writes the store (R101, R102, R121, R124). -/
theorem streamByte_store (b : Byte) (c : Scp) {k : LoadKind} (loading : c.eng = .loading k) :
    c.SameStore (c.streamByte b) ∨ (k = .cal ∧ c.n.val = 21) := by
  rw [c.streamByte_loading b k loading]
  split_ifs with last
  · cases k with
    | cal => exact .inr ⟨rfl, last⟩
    | _ => exact .inl ⟨rfl, rfl⟩
  · exact .inl ⟨rfl, rfl⟩

/-- Only the failure of a calibration load empties the store, and it keeps COEF_RAW (R103, R122, R125). -/
theorem streamFail_store (cause : FailCause) (c : Scp) :
    c.SameStore (c.streamFail cause) ∨
      (c.eng = .loading .cal ∧ (c.streamFail cause).coefRaw = c.coefRaw) := by
  rcases c.streamFail_cases cause with ⟨k, loading, e⟩ | ⟨-, e⟩ <;> rw [e]
  · cases k with
    | cal => exact .inr ⟨loading, rfl⟩
    | _ => exact .inl ⟨rfl, rfl⟩
  · exact .inl ⟨rfl, rfl⟩

theorem WriteEffect.sameStore {c d : Scp} {w : Word} {r : Reg} (e : WriteEffect c w r d) : c.SameStore d := by
  cases e <;> exact ⟨rfl, rfl⟩

/-- A command that runs is rejected while BUSY = 1, else it has the effect of its issue (R54, R192). -/
theorem exec_effect {i : Instr} {u t : State} (h : exec i u = .next t) :
    t.scp = u.scp.rejectWrite ∨ (u.scp.eng = .idle ∧ IssueEffect u.scp i t.scp) := by
  rw [exec_eq_issue, Host.Outcome.next.injEq] at h
  rw [← h, State.onScp_scp]
  rcases u.scp.unlessBusy_cases (Scp.issue i) with ⟨idle, e⟩ | ⟨-, e⟩ <;> rw [e]
  · exact .inr ⟨idle, issueEffect i u.scp⟩
  · exact .inl rfl

/-- The stream's next event is the 22nd byte of a calibration load (R102). -/
def State.CalCommitNext (s : State) : Prop :=
  (nextTurn s).1 = .stream ∧ s.scp.eng = .loading .cal ∧ s.scp.n.val = 21 ∧ ∃ b es, s.stream = .byte b :: es

/-- The stream's next event fails a calibration load (R103). -/
def State.CalFailNext (s : State) : Prop :=
  (nextTurn s).1 = .stream ∧ s.scp.eng = .loading .cal ∧ ∃ cause es, s.stream = .fail cause :: es

/-- The host's next access writes CLEAR_CAL to CMD while BUSY = 0 (R105). -/
def State.ClearCalNext (s : State) : Prop :=
  (nextTurn s).1 = .host ∧ s.scp.eng = .idle ∧ ∃ as, s.host = ⟨.write (encode .clearCal), 0x04, 4⟩ :: as

/-- Who can write the store, and which of them keep COEF_RAW (R106, R230). -/
theorem step_store {s t : State} (h : step s = .next t) :
    s.scp.SameStore t.scp ∨ (nextTurn s).1 = .reset ∨ s.CalCommitNext ∨
      (t.scp.coefRaw = s.scp.coefRaw ∧ (s.CalFailNext ∨ s.ClearCalNext)) := by
  rcases step_cases h with ⟨-, e⟩ | ⟨turn, -⟩ | e | ⟨turn, ready, b, es, stream, e⟩ |
    ⟨turn, cause, es, stream, e⟩ | ⟨turn, w, as, access, u, hu, hexec⟩ | ⟨-, off, w, as, -, -, e⟩
  · rw [e]
    exact .inl (engineEffect _).sameStore
  · exact .inr (.inl turn)
  · rw [e]
    exact .inl ⟨rfl, rfl⟩
  · obtain ⟨k, loading⟩ := (Scp.sReady_eq_true _).1 ready
    rw [e]
    rcases streamByte_store b s.scp loading with same | ⟨rfl, last⟩
    · exact .inl same
    · exact .inr (.inr (.inl ⟨turn, loading, last, b, es, stream⟩))
  · rw [e]
    rcases streamFail_store cause s.scp with same | ⟨loading, kept⟩
    · exact .inl same
    · exact .inr (.inr (.inr ⟨kept, .inl ⟨turn, loading, cause, es, stream⟩⟩))
  · have heffect := exec_effect hexec
    rw [hu] at heffect
    rcases heffect with e | ⟨idle, effect⟩
    · rw [e]
      exact .inl ⟨rfl, rfl⟩
    rcases effect.store with same | hi
    · exact .inl same
    · obtain ⟨-, -, -, -, kept, -⟩ := effect.frame
      rw [eq_encode_of_decode hi] at access
      exact .inr (.inr (.inr ⟨kept, .inr ⟨turn, idle, as, access⟩⟩))
  · rw [e]
    exact .inl (writeEffect _ _ _).sameStore

/-- Settles O55: a step keeps the store, or it is a reset, the commit, or a writer of CAL_VALID alone. -/
theorem onlyTheLoaderWritesTheStore : Obligations.OnlyTheLoaderWritesTheStore := by
  intro s t hstep
  rcases step_store hstep with ⟨hcoef, hcal⟩ | reset | commits | ⟨hcoef, fails | clears⟩
  · exact ⟨absurd hcoef, absurd hcal⟩
  · exact ⟨fun _ => .inl reset, fun _ => .inl reset⟩
  · exact ⟨fun _ => .inr commits, fun _ => .inr (.inl commits)⟩
  · exact ⟨absurd hcoef, fun _ => .inr (.inr (.inl fails))⟩
  · exact ⟨absurd hcoef, fun _ => .inr (.inr (.inr clears))⟩

end Sys2Proof.Machine
end

section
/-! PROOFS. The raw readings (41_raw_readings.md R120 to R127): their loads, from the command to the commit or the
failure, and the host's writes of UT and UP. -/

namespace Sys2Proof.Machine

/-! ### The commands -/

/-- Settles O11: the issue of LOAD_UT is acceptance and the start of a load. -/
theorem loadUtStartsALoad : Obligations.LoadUtStartsALoad :=
  fun _ idle => exec_of_idle idle .loadUt

/-- Settles O12: the issue of LOAD_UP is acceptance, the latch of OSS and the start of a load. -/
theorem loadUpLatchesOssAndStartsALoad : Obligations.LoadUpLatchesOssAndStartsALoad :=
  fun _ idle => exec_of_idle idle .loadUp

/-! ### The commit -/

/-- A stored byte, when the count is known (R36). -/
theorem Scp.storeByte_of_n {c : Scp} (b : Byte) {i : Nat} (hn : c.n.val = i) (hi : i < 22) :
    c.storeByte b = { c with shadow := c.shadow.set i b } := by
  subst hn
  rfl

/-- A stream turn with the last byte of a load stores it and commits the load (R61). -/
theorem step_stream_byte_commits {s : State} {ts : List Agent} {b : Byte} {es : List StreamEvent} {k : LoadKind}
    (hturns : s.turns = .stream :: ts) (hstream : s.stream = .byte b :: es) (loading : s.scp.eng = .loading k)
    (last : s.scp.n.val = k.frameBytes - 1) :
    step s = .next { s with turns := ts, stream := es, scp := (s.scp.storeByte b).commit k } := by
  rw [step_stream_byte_taken hturns hstream loading, Scp.streamByte_of_last b loading last]

/-- A byte pair, from its number (R63). -/
theorem bytePair_eq_ofNat (msb lsb : Byte) : bytePair msb lsb = BitVec.ofNat 16 (256 * msb.toNat + lsb.toNat) := by
  rw [← bytePair_toNat, BitVec.ofNat_toNat, BitVec.setWidth_eq]

/-- UP of a pressure frame, from its number (R89). -/
theorem upFrame_eq_ofNat (msb lsb xlsb : Byte) (oss : BitVec 2) :
    upFrame msb lsb xlsb oss =
      BitVec.ofNat 19 ((msb.toNat * 2 ^ 16 + lsb.toNat * 2 ^ 8 + xlsb.toNat) / 2 ^ (8 - oss.toNat)) := by
  obtain ⟨number, -⟩ := upFrameIsTheShiftedReading msb lsb xlsb oss
  rw [← number, BitVec.ofNat_toNat, BitVec.setWidth_eq]

/-- Settles O20: the byte stored last is SHADOW[1], and SHADOW[0] is kept. -/
theorem loadUtCommit : Obligations.LoadUtCommit := by
  intro s ts b es hturns hstream loading last
  have hut : bytePair (s.scp.shadow.set 1 b)[0] (s.scp.shadow.set 1 b)[1] =
      BitVec.ofNat 16 (256 * s.scp.shadow[0].toNat + b.toNat) := by
    rw [bytePair_eq_ofNat, Vector.getElem_set_ne _ _ (by decide), Vector.getElem_set_self]
  rw [step_stream_byte_commits hturns hstream loading last, Scp.storeByte_of_n b last (by decide), ← hut]
  rfl

/-- Settles O21: the byte stored last is SHADOW[2], and SHADOW[0] and SHADOW[1] are kept. -/
theorem loadUpCommit : Obligations.LoadUpCommit := by
  intro s ts b es hturns hstream loading last
  have hup : upFrame (s.scp.shadow.set 2 b)[0] (s.scp.shadow.set 2 b)[1] (s.scp.shadow.set 2 b)[2] s.scp.loss =
      BitVec.ofNat 19
        ((s.scp.shadow[0].toNat * 2 ^ 16 + s.scp.shadow[1].toNat * 2 ^ 8 + b.toNat) /
          2 ^ (8 - s.scp.loss.toNat)) := by
    rw [upFrame_eq_ofNat, Vector.getElem_set_ne _ _ (by decide), Vector.getElem_set_ne _ _ (by decide),
      Vector.getElem_set_self]
  rw [step_stream_byte_commits hturns hstream loading last, Scp.storeByte_of_n b last (by decide), ← hup]
  rfl

/-! ### The failure -/

/-- A stream turn with a failure in a load fails that load (R62). -/
theorem step_stream_fail_loading {s : State} {ts : List Agent} {cause : FailCause} {es : List StreamEvent}
    {k : LoadKind} (hturns : s.turns = .stream :: ts) (hstream : s.stream = .fail cause :: es)
    (loading : s.scp.eng = .loading k) :
    step s = .next { s with turns := ts, stream := es, scp := s.scp.loadFail k cause } := by
  rw [step_stream_fail hturns hstream, Scp.streamFail_loading cause loading]

/-- Settles O23: the failure of a raw load, with its cause as ERR_SUB. -/
theorem rawLoadFailure : Obligations.RawLoadFailure := by
  intro s ts cause es hturns hstream
  constructor <;> intro loading
  · rw [step_stream_fail_loading hturns hstream loading]
    cases cause <;> rfl
  · rw [step_stream_fail_loading hturns hstream loading]
    cases cause <;> rfl

/-! ### The host's writes -/

/-- A write that BUSY = 0 lets through (R54, R56). -/
theorem hostAccess_write_accepted {s : State} (idle : s.scp.eng = .idle) {off : BitVec 8} {r : Reg} {w : Word}
    {f : Scp → Scp} (aligned : off.toNat % 4 = 0) (hr : regAt off = r) (hne : r ≠ .cmd)
    (guarded : Scp.write r w = Scp.unlessBusy f) :
    hostAccess ⟨.write w, off, 4⟩ s = .next { s with scp := f s.scp } := by
  rw [hostAccess_write_of_ne s w aligned hr hne, guarded, State.onScp, Scp.unlessBusy_idle f s.scp idle]

/-- Settles O34: UT and UP take their low bits, and `BitVec.ofNat` takes the word mod 2^16 or 2^19. -/
theorem rawRegisterWrites : Obligations.RawRegisterWrites := by
  intro s w idle
  constructor
  · exact hostAccess_write_accepted idle (f := Scp.writeUt w) rfl regAt_ut nofun rfl
  · exact hostAccess_write_accepted idle (f := Scp.writeUp w) rfl regAt_up nofun rfl

end Sys2Proof.Machine
end

section
/-! PROOFS. The range facts of the step sequence (42_compensation.md R170): what each of the steps T1 to P15 computes
and how large it can be, and from these the two sequences. -/

namespace Sys2Proof.Machine

/-! ### Symmetric bounds -/

/-- The bound |x| ≤ m. -/
def Within (m x : Int) : Prop := -m ≤ x ∧ x ≤ m

namespace Within

variable {m n x y : Int}

theorem mono (h : Within m x) (hm : m ≤ n) : Within n x :=
  ⟨(Int.neg_le_neg hm).trans h.1, h.2.trans hm⟩

theorem add (hx : Within m x) (hy : Within n y) : Within (m + n) (x + y) := by
  obtain ⟨hx, hx'⟩ := hx
  obtain ⟨hy, hy'⟩ := hy
  constructor <;> omega

theorem sub (hx : Within m x) (hy : Within n y) : Within (m + n) (x - y) := by
  obtain ⟨hx, hx'⟩ := hx
  obtain ⟨hy, hy'⟩ := hy
  constructor <;> omega

theorem mul (hx : Within m x) (hy : Within n y) : Within (m * n) (x * y) :=
  mul_mem_of_mem hx.1 hx.2 hy.1 hy.2

theorem self (h : 0 ≤ x) : Within x x := ⟨by omega, Int.le_refl x⟩

/-- A quotient by a positive divisor. -/
theorem fdiv_of_pos (h : Within m x) {k : Int} (hk : 0 < k) (hm : m ≤ n * k) : Within n (fdiv x k) := by
  obtain ⟨hlow, hhigh⟩ := h
  apply fdiv_mem_of_mem hk
  · rw [Int.neg_mul]
    omega
  · omega

/-- A quotient by a divisor of size at least `k`. -/
theorem fdiv_of_le (h : Within (m * n) x) (hm : 0 ≤ m) {k : Int} (hn : 0 < n) (hk : n ≤ k ∨ k ≤ -n) :
    Within m (fdiv x k) := by
  rcases hk with hk | hk
  · exact h.fdiv_of_pos (by omega) (Int.mul_le_mul_of_nonneg_left hk hm)
  · rw [← fdiv_neg_neg]
    have hneg : Within (m * n) (-x) := ⟨Int.neg_le_neg h.2, Int.neg_le_of_neg_le h.1⟩
    exact hneg.fdiv_of_pos (by omega) (Int.mul_le_mul_of_nonneg_left (by omega) hm)

/-- A quotient by any divisor that is not 0. -/
theorem fdiv_of_ne (h : Within m x) {k : Int} (hk : k ≠ 0) : Within m (fdiv x k) :=
  fdiv_mem_of_ne hk h.1 h.2

theorem fits64 (h : Within m x) (hm : m ≤ 2 ^ 63 - 1) : fits64 x := by
  obtain ⟨hlow, hhigh⟩ := h
  constructor <;> omega

end Within

/-! ### Steps that succeed -/

/-- The computation succeeds with the value `x`, and |x| ≤ m: a row of R170's table. -/
def OkWithin (r : Except StepFail Int) (x m : Int) : Prop := r = .ok x ∧ Within m x

section
variable {m n q x y k : Int} {c : StepCode}

theorem bind_of_ok {α β : Type} {r : Except StepFail α} {a : α} (h : r = .ok a) (rest : α → Except StepFail β) :
    (r >>= rest) = rest a := by
  rw [h]
  rfl

theorem Within.chk (h : Within m x) (hm : m ≤ 2 ^ 63 - 1) : OkWithin (chk x c) x m :=
  ⟨chk_of_fits c (h.fits64 hm), h⟩

/-- A check that passes, before the rest of its step. -/
theorem Within.chk_bind (h : Within m x) (hm : m ≤ 2 ^ 63 - 1) {rest : Int → Except StepFail Int}
    (hrest : OkWithin (rest x) y n) : OkWithin (Machine.chk x c >>= rest) y n := by
  rwa [bind_of_ok (chk_of_fits c (h.fits64 hm))]

/-- A value that is divided by a constant. -/
theorem Within.chk_fdiv (h : Within m x) (hm : m ≤ 2 ^ 63 - 1) (hk : 0 < k) (hq : m ≤ q * k) :
    OkWithin (Machine.chk x c >>= fun a => Machine.chk (fdiv a k) c) (fdiv x k) q :=
  h.chk_bind hm ⟨chk_of_fits c ((h.fdiv_of_ne hk.ne').fits64 hm), h.fdiv_of_pos hk hq⟩

end

/-! ### T1 to T4 -/

section
variable {ut ac5 ac6 mc md x1 x2 b5 : Int}

theorem stepT1_range (hd : Within 65535 (ut - ac6)) (hac5 : Within 65535 ac5) :
    OkWithin (stepT1 ut ac6 ac5) (fdiv ((ut - ac6) * ac5) (2 ^ 15)) 131069 :=
  hd.chk_bind (by norm_num) ((hd.mul hac5).chk_fdiv (by norm_num) (by norm_num) (by norm_num))

theorem stepT2_of_zero (hmc : Within (2 ^ 15) mc) (hzero : x1 + md = 0) :
    stepT2 x1 mc md = .error (.divZero .t2) := by
  have hm := (hmc.mul (.self (x := 2 ^ 11) (by norm_num))).fits64 (by norm_num)
  rw [stepT2, hzero, bind_of_ok (chk_of_fits _ (by decide)), bind_of_ok (chk_of_fits _ hm), divChk_zero]

theorem stepT2_range (hx1 : Within 131069 x1) (hmc : Within (2 ^ 15) mc) (hmd : Within (2 ^ 15) md)
    (hne : x1 + md ≠ 0) : OkWithin (stepT2 x1 mc md) (fdiv (mc * 2 ^ 11) (x1 + md)) (2 ^ 26) := by
  have hm : Within (2 ^ 26) (mc * 2 ^ 11) := hmc.mul (.self (by norm_num))
  refine (hx1.add hmd).chk_bind (by norm_num) (hm.chk_bind (by norm_num) ?_)
  rw [divChk_of_ne _ _ hne]
  exact (hm.fdiv_of_ne hne).chk (by norm_num)

/-- b5's bound: X2 is large only when X1 is close to −MD, and then X1 is small. -/
theorem b5_within (hx1 : Within 131069 x1) (hmc : Within (2 ^ 15) mc) (hmd : Within (2 ^ 15) md)
    (hne : x1 + md ≠ 0) : Within 67239932 (x1 + fdiv (mc * 2 ^ 11) (x1 + md)) := by
  have hm : Within (2 ^ 26) (mc * 2 ^ 11) := hmc.mul (.self (by norm_num))
  by_cases hd : 2 ≤ x1 + md ∨ x1 + md ≤ -2
  · have hx2 : Within (2 ^ 25) (fdiv (mc * 2 ^ 11) (x1 + md)) :=
      Within.fdiv_of_le (n := 2) hm (by norm_num) (by norm_num) hd
    exact (hx1.add hx2).mono (by norm_num)
  · have hsmall : Within (2 ^ 15 + 1) x1 := by
      obtain ⟨hlow, hhigh⟩ := hmd
      constructor <;> omega
    exact (hsmall.add (hm.fdiv_of_ne hne)).mono (by norm_num)

theorem stepT4_eq (hb5 : Within 67239932 b5) : stepT4 b5 = .ok (fdiv (b5 + 8) (2 ^ 4)) := by
  have ha : Within 67239940 (b5 + 8) := hb5.add (.self (by norm_num))
  obtain ⟨hlow, hhigh⟩ : Within (2 ^ 23) (fdiv (b5 + 8) (2 ^ 4)) := ha.fdiv_of_pos (by norm_num) (by norm_num)
  have hquot : fits64 (fdiv (b5 + 8) (2 ^ 4)) := by constructor <;> omega
  rw [stepT4, show rom 0 = 8 from rfl, bind_of_ok (chk_of_fits _ (ha.fits64 (by norm_num))),
    bind_of_ok (chk_of_fits _ hquot)]
  exact chk32_of_fits _ (by constructor <;> omega)

end

/-- Settles O45: T1 to T4 pass every range check, and T2 fails exactly at a zero divisor. -/
theorem temperatureSequence : Obligations.TemperatureSequence := by
  intro ut ac5 ac6 mc md hut hut' hac5 hac5' hac6 hac6' hmc hmc' hmd hmd' x1 b5
  have hMC : Within (2 ^ 15) mc := ⟨hmc, hmc'.le⟩
  have hMD : Within (2 ^ 15) md := ⟨hmd, hmd'.le⟩
  obtain ⟨e1, hx1⟩ : OkWithin (stepT1 ut ac6 ac5) x1 131069 :=
    stepT1_range ⟨by omega, by omega⟩ ⟨by omega, by omega⟩
  refine ⟨fun hzero => tseq_of_failed_T2 e1 (stepT2_of_zero hMC hzero), fun hne => ?_⟩
  obtain ⟨e2, -⟩ := stepT2_range hx1 hMC hMD hne
  have hb5 : Within 67239932 b5 := b5_within hx1 hMC hMD hne
  obtain ⟨e3, -⟩ := hb5.chk (c := .t3) (by norm_num)
  exact ⟨tseq_of_steps e1 e2 e3 (stepT4_eq hb5), hb5⟩

/-- Refutes O47: at UT = 0 and AC5 = AC6 = 65535 the product is −65535², and the floor of −65535² / 2^15 is
−131069. -/
theorem not_temperatureStepOneBoundOfTheSpec : ¬ Obligations.TemperatureStepOneBoundOfTheSpec := by
  intro h
  obtain ⟨x, hx, hlow, -⟩ := h 0 0xFFFF 0xFFFF
  have hvalue : stepT1 (zext 0#16) (zext 0xFFFF#16) (zext 0xFFFF#16) = .ok (-131069) := by decide
  obtain rfl : -131069 = x := Except.ok.inj (hvalue.symm.trans hx)
  omega

/-! ### P1 to P12 -/

section
variable {up b5 ac1 ac2 ac3 ac4 b1 b2 b6 sq x1 x2 x3 y1 y2 y3 b3 b4 b7 p : Int} {oss : Nat}

theorem stepP1_range (hb5 : Within 67239932 b5) : OkWithin (stepP1 b5) (b5 - 4000) 67243932 :=
  (hb5.sub (.self (x := 4000) (by norm_num))).chk (by norm_num)

theorem stepP2_range (hb6 : Within 67243932 b6) : OkWithin (stepP2 b6) (fdiv (b6 * b6) (2 ^ 12)) (2 ^ 41) :=
  (hb6.mul hb6).chk_fdiv (by norm_num) (by norm_num) (by norm_num)

theorem stepP3_range (hb2 : Within (2 ^ 15) b2) (hsq : Within (2 ^ 41) sq) :
    OkWithin (stepP3 b2 sq) (fdiv (b2 * sq) (2 ^ 11)) (2 ^ 45) :=
  (hb2.mul hsq).chk_fdiv (by norm_num) (by norm_num) (by norm_num)

theorem stepP4_range (hac2 : Within (2 ^ 15) ac2) (hb6 : Within 67243932 b6) :
    OkWithin (stepP4 ac2 b6) (fdiv (ac2 * b6) (2 ^ 11)) (2 ^ 31) :=
  (hac2.mul hb6).chk_fdiv (by norm_num) (by norm_num) (by norm_num)

theorem stepP5_range (hx1 : Within (2 ^ 45) x1) (hx2 : Within (2 ^ 31) x2) :
    OkWithin (stepP5 x1 x2) (x1 + x2) (2 ^ 45 + 2 ^ 31) :=
  (hx1.add hx2).chk (by norm_num)

theorem two_pow_oss_range (hoss : oss ≤ 3) : 0 < (2 : Int) ^ oss ∧ Within 8 (2 ^ oss) := by
  have hpos : 0 < (2 : Int) ^ oss := by positivity
  have hle : (2 : Int) ^ oss ≤ 2 ^ 3 := pow_le_pow_right₀ (by norm_num) hoss
  exact ⟨hpos, by omega, hle⟩

theorem stepP6_range (hac1 : Within (2 ^ 15) ac1) (hx3 : Within (2 ^ 45 + 2 ^ 31) x3) (hoss : oss ≤ 3) :
    OkWithin (stepP6 ac1 x3 oss) (fdiv ((4 * ac1 + x3) * 2 ^ oss + 2) 4) (2 ^ 46 + 2 ^ 33) := by
  have ha := (Within.self (x := 4) (by norm_num)).mul hac1
  have hb := ha.add hx3
  have he := hb.mul (two_pow_oss_range hoss).2
  have hf := he.add (.self (x := 2) (by norm_num))
  exact ha.chk_bind (by norm_num) (hb.chk_bind (by norm_num) (he.chk_bind (by norm_num)
    (hf.chk_fdiv (by norm_num) (by norm_num) (by norm_num))))

theorem stepP7_range (hac3 : Within (2 ^ 15) ac3) (hb6 : Within 67243932 b6) :
    OkWithin (stepP7 ac3 b6) (fdiv (ac3 * b6) (2 ^ 13)) (2 ^ 29) :=
  (hac3.mul hb6).chk_fdiv (by norm_num) (by norm_num) (by norm_num)

theorem stepP8_range (hb1 : Within (2 ^ 15) b1) (hsq : Within (2 ^ 41) sq) :
    OkWithin (stepP8 b1 sq) (fdiv (b1 * sq) (2 ^ 16)) (2 ^ 40) :=
  (hb1.mul hsq).chk_fdiv (by norm_num) (by norm_num) (by norm_num)

theorem stepP9_range (hy1 : Within (2 ^ 29) y1) (hy2 : Within (2 ^ 40) y2) :
    OkWithin (stepP9 y1 y2) (fdiv (y1 + y2 + 2) 4) (2 ^ 39) := by
  have ha := hy1.add hy2
  exact ha.chk_bind (by norm_num)
    ((ha.add (.self (x := 2) (by norm_num))).chk_fdiv (by norm_num) (by norm_num) (by norm_num))

theorem stepP10_range (hac4 : Within 65535 ac4) (hy3 : Within (2 ^ 39) y3) :
    OkWithin (stepP10 ac4 y3) (fdiv (ac4 * (y3 + 32768)) (2 ^ 15)) (2 ^ 41) := by
  have ha := hy3.add (.self (x := 32768) (by norm_num))
  exact ha.chk_bind (by norm_num) ((hac4.mul ha).chk_fdiv (by norm_num) (by norm_num) (by norm_num))

theorem stepP11_range (hup : Within (2 ^ 19) up) (hb3 : Within (2 ^ 46 + 2 ^ 33) b3) (hoss : oss ≤ 3) :
    OkWithin (stepP11 up b3 oss) ((up - b3) * fdiv 50000 (2 ^ oss)) (2 ^ 62 - 1) := by
  have ha := hup.sub hb3
  have hscale := (Within.self (x := 50000) (by norm_num)).fdiv_of_ne (two_pow_oss_range hoss).1.ne'
  exact ha.chk_bind (by norm_num) (((ha.mul hscale).mono (by norm_num)).chk (by norm_num))

theorem stepP12_of_zero (b7 : Int) : stepP12 b7 0 = .error (.divZero .p12) := rfl

theorem stepP12_of_ne (hb7 : Within (2 ^ 62 - 1) b7) (hne : b4 ≠ 0) :
    stepP12 b7 b4 = .ok (fdiv b7 b4 * 2) := by
  have hq := hb7.fdiv_of_ne hne
  rw [stepP12, divChk_of_ne _ _ hne, bind_of_ok (chk_of_fits _ (hq.fits64 (by norm_num)))]
  exact chk_of_fits _ ((hq.mul (.self (x := 2) (by norm_num))).fits64 (by norm_num))

/-- P1 to P11 succeed, and P12 is what is left of P1 to P12 (R149). -/
theorem pseqHead_of_steps (h1 : stepP1 b5 = .ok b6) (h2 : stepP2 b6 = .ok sq) (h3 : stepP3 b2 sq = .ok x1)
    (h4 : stepP4 ac2 b6 = .ok x2) (h5 : stepP5 x1 x2 = .ok x3) (h6 : stepP6 ac1 x3 oss = .ok b3)
    (h7 : stepP7 ac3 b6 = .ok y1) (h8 : stepP8 b1 sq = .ok y2) (h9 : stepP9 y1 y2 = .ok y3)
    (h10 : stepP10 ac4 y3 = .ok b4) (h11 : stepP11 up b3 oss = .ok b7) :
    pseqHead up b5 ac1 ac2 ac3 ac4 b1 b2 oss = stepP12 b7 b4 := by
  rw [pseqHead, bind_of_ok h1, bind_of_ok h2, bind_of_ok h3, bind_of_ok h4, bind_of_ok h5, bind_of_ok h6,
    bind_of_ok h7, bind_of_ok h8, bind_of_ok h9, bind_of_ok h10, bind_of_ok h11]

end

/-! ### P13 to P15 -/

section
variable {p : Int}

theorem square_not_fits64 (h : p ≤ -3037000500 ∨ 3037000500 ≤ p) : ¬ fits64 (p * p) := by
  have hsq : 3037000500 * 3037000500 ≤ p * p := by
    rcases h with h | h <;> nlinarith
  rintro ⟨-, hle⟩
  omega

theorem stepP13_of_large (h : p ≤ -3037000500 ∨ 3037000500 ≤ p) : stepP13 p = .error (.overflow .p13) := by
  rw [stepP13, chk_of_not_fits _ (square_not_fits64 h)]
  rfl

theorem stepP13_range (hp : Within 3037000499 p) :
    OkWithin (stepP13 p) (fdiv (fdiv (p * p) (2 ^ 16) * 3038) (2 ^ 16)) (2 ^ 43) := by
  have hm := hp.mul hp
  have ha : Within (2 ^ 47) (fdiv (p * p) (2 ^ 16)) := hm.fdiv_of_pos (by norm_num) (by norm_num)
  exact hm.chk_bind (by norm_num) (ha.chk_bind (by norm_num)
    ((ha.mul (.self (x := 3038) (by norm_num))).chk_fdiv (by norm_num) (by norm_num) (by norm_num)))

theorem stepP14_range (hp : Within 3037000499 p) :
    OkWithin (stepP14 p) (fdiv (-7357 * p) (2 ^ 16)) (2 ^ 29) := by
  have hscale : Within 7357 (-7357) := ⟨by norm_num, by norm_num⟩
  exact (hscale.mul hp).chk_fdiv (by norm_num) (by norm_num) (by norm_num)

theorem stepP15_eq {z1 z2 : Int} (hp : Within 3037000499 p) (hz1 : Within (2 ^ 43) z1) (hz2 : Within (2 ^ 29) z2) :
    stepP15 p z1 z2 = chk32 (p + fdiv (z1 + z2 + 3791) (2 ^ 4)) .p15 := by
  have ha := hz1.add hz2
  have hb := ha.add (.self (x := 3791) (by norm_num))
  have hq := hb.fdiv_of_ne (k := 2 ^ 4) (by norm_num)
  have hpc := hp.add hq
  rw [stepP15, show rom 8 = 3791 from rfl, bind_of_ok (chk_of_fits _ (ha.fits64 (by norm_num))),
    bind_of_ok (chk_of_fits _ (hb.fits64 (by norm_num))), bind_of_ok (chk_of_fits _ (hq.fits64 (by norm_num))),
    bind_of_ok (chk_of_fits _ (hpc.fits64 (by norm_num)))]

/-- PC, from a P whose square fits (R166 to R168). -/
def pressureOutput (p : Int) : Int :=
  p + fdiv (fdiv (fdiv (p * p) (2 ^ 16) * 3038) (2 ^ 16) + fdiv (-7357 * p) (2 ^ 16) + 3791) (2 ^ 4)

theorem chk32_eq (x : Int) (c : StepCode) :
    chk32 x c = if x < -(2 ^ 31) ∨ 2 ^ 31 ≤ x then .error (.overflow c) else .ok x := by
  split_ifs with h
  · exact chk32_of_not_fits c fun ⟨hlow, hhigh⟩ => by omega
  · exact chk32_of_fits c ⟨by omega, by omega⟩

theorem pseqTail_eq (p : Int) :
    pseqTail p =
      if p ≤ -3037000500 ∨ 3037000500 ≤ p then .error (.overflow .p13)
      else if pressureOutput p < -(2 ^ 31) ∨ 2 ^ 31 ≤ pressureOutput p then .error (.overflow .p15)
      else .ok (pressureOutput p) := by
  by_cases h : p ≤ -3037000500 ∨ 3037000500 ≤ p
  · rw [if_pos h, pseqTail, stepP13_of_large h]
    rfl
  · have hp : Within 3037000499 p := ⟨by omega, by omega⟩
    obtain ⟨e13, hz1⟩ := stepP13_range hp
    obtain ⟨e14, hz2⟩ := stepP14_range hp
    rw [if_neg h, pseqTail, bind_of_ok e13, bind_of_ok e14, stepP15_eq hp hz1 hz2, chk32_eq]
    rfl

end

/-- Settles O48: P · P leaves 64 bits, or every check of P13 passes. -/
theorem pressureSquareOverflow : Obligations.PressureSquareOverflow :=
  fun _ => ⟨stepP13_of_large, fun hlow hhigh => (stepP13_range ⟨by omega, by omega⟩).1⟩

/-- The sequence is its two parts (R149). -/
theorem pseq_eq (up b5 ac1 ac2 ac3 ac4 b1 b2 : Int) (oss : Nat) :
    pseq up b5 ac1 ac2 ac3 ac4 b1 b2 oss = pseqHead up b5 ac1 ac2 ac3 ac4 b1 b2 oss >>= pseqTail := rfl

/-- Settles O46: P1 to P11 pass every check, so the sequence is P12, then P13 to P15, whose failures are the divisor,
the square and the 32-bit check of the result. -/
theorem pressureSequence : Obligations.PressureSequence := by
  intro up b5 ac1 ac2 ac3 ac4 b1 b2 oss hup hup' hb5 hb5' hac1 hac1' hac2 hac2' hac3 hac3' hac4 hac4' hb1 hb1' hb2
    hb2' hoss b6 sq x3 b3 y3 b4 b7 p z1 z2 pc
  obtain ⟨e1, hb6⟩ := stepP1_range ⟨hb5, hb5'⟩
  obtain ⟨e2, hsq⟩ := stepP2_range hb6
  obtain ⟨e3, hx1⟩ := stepP3_range ⟨hb2, hb2'.le⟩ hsq
  obtain ⟨e4, hx2⟩ := stepP4_range ⟨hac2, hac2'.le⟩ hb6
  obtain ⟨e5, hx3⟩ := stepP5_range hx1 hx2
  obtain ⟨e6, hb3⟩ := stepP6_range ⟨hac1, hac1'.le⟩ hx3 hoss
  obtain ⟨e7, hy1⟩ := stepP7_range ⟨hac3, hac3'.le⟩ hb6
  obtain ⟨e8, hy2⟩ := stepP8_range ⟨hb1, hb1'.le⟩ hsq
  obtain ⟨e9, hy3⟩ := stepP9_range hy1 hy2
  obtain ⟨e10, -⟩ := stepP10_range (ac4 := ac4) ⟨by omega, by omega⟩ hy3
  obtain ⟨e11, hb7⟩ := stepP11_range (up := up) ⟨by omega, by omega⟩ hb3 hoss
  have hhead : pseqHead up b5 ac1 ac2 ac3 ac4 b1 b2 oss = stepP12 b7 b4 :=
    pseqHead_of_steps e1 e2 e3 e4 e5 e6 e7 e8 e9 e10 e11
  rw [pseq_eq, hhead]
  by_cases hzero : b4 = 0
  · rw [if_pos hzero, hzero, stepP12_of_zero]
    rfl
  · rw [if_neg hzero, bind_of_ok (stepP12_of_ne hb7 hzero)]
    exact pseqTail_eq p

end Sys2Proof.Machine
end

section
/-! PROOFS. The issue of COMP_T, COMP_P and COMPENSATE (42_compensation.md R143, R145, R147): the checks in their
order, each with the failure it ends in. -/

namespace Sys2Proof.Machine

section
variable {s : State} {i : Instr} {d : Scp}

/-- A command issued while idle, when its issue is known (R192). -/
theorem exec_of_issue (idle : s.scp.eng = .idle) (h : s.scp.issue i = d) :
    exec i s = .next { s with scp := d } := by
  rw [exec_of_idle idle, h]

/-- An issue that ends its command leaves ENG as it was: IDLE (R205, R206). -/
theorem exec_of_ended_issue (idle : s.scp.eng = .idle) (h : s.scp.issue i = d) (ended : d.eng = .idle) :
    exec i s = .next { s with scp := { d with eng := s.scp.eng } } := by
  rw [exec_of_issue idle h, idle, ← ended]

end

/-- Settles O13: CAL_VALID decides first, then UT_VALID. -/
theorem compTIssue : Obligations.CompTIssue := by
  intro s idle
  refine ⟨fun hcal on => ?_, fun hcal off => ?_, fun hcal hut => ?_, fun hcal hut => ?_⟩
  · exact exec_of_ended_issue (d := s.scp.accept.legacyZero .t) idle ((if_pos hcal).trans (if_pos on)) rfl
  · exact exec_of_ended_issue (d := s.scp.accept.clearB5Valid.fail .uncalibrated 0 0) idle
      ((if_pos hcal).trans (if_neg (ne_true_of_eq_false off))) rfl
  · exact exec_of_ended_issue (d := s.scp.accept.clearB5Valid.fail .noRaw 0 0) idle
      ((if_neg (ne_false_of_eq_true hcal)).trans (if_pos hut)) rfl
  · exact exec_of_issue (d := s.scp.accept.startCompute .t) idle
      ((if_neg (ne_false_of_eq_true hcal)).trans (if_neg (ne_false_of_eq_true hut)))

/-- Settles O14: CAL_VALID decides first, then UP_VALID, then B5_VALID. -/
theorem compPIssue : Obligations.CompPIssue := by
  intro s idle
  refine ⟨fun hcal on => ?_, fun hcal off => ?_, fun hcal hup => ?_, fun hcal hup hb5 => ?_, fun hcal hup hb5 => ?_⟩
  · exact exec_of_ended_issue (d := s.scp.accept.legacyZero .p) idle ((if_pos hcal).trans (if_pos on)) rfl
  · exact exec_of_ended_issue (d := s.scp.accept.fail .uncalibrated 0 0) idle
      ((if_pos hcal).trans (if_neg (ne_true_of_eq_false off))) rfl
  · exact exec_of_ended_issue (d := s.scp.accept.fail .noRaw 1 0) idle
      ((if_neg (ne_false_of_eq_true hcal)).trans (if_pos hup)) rfl
  · exact exec_of_ended_issue (d := s.scp.accept.fail .noB5 0 0) idle
      ((if_neg (ne_false_of_eq_true hcal)).trans ((if_neg (ne_false_of_eq_true hup)).trans (if_pos hb5))) rfl
  · exact exec_of_issue (d := s.scp.accept.latchOss.startCompute .p) idle
      ((if_neg (ne_false_of_eq_true hcal)).trans
        ((if_neg (ne_false_of_eq_true hup)).trans (if_neg (ne_false_of_eq_true hb5))))

/-- Settles O15: CAL_VALID decides first, then UT_VALID, then UP_VALID. -/
theorem compensateIssue : Obligations.CompensateIssue := by
  intro s idle
  refine ⟨fun hcal on => ?_, fun hcal off => ?_, fun hcal hut => ?_, fun hcal hut hup => ?_, fun hcal hut hup => ?_⟩
  · exact exec_of_ended_issue (d := s.scp.accept.legacyZero .tp) idle ((if_pos hcal).trans (if_pos on)) rfl
  · exact exec_of_ended_issue (d := s.scp.accept.clearB5Valid.fail .uncalibrated 0 0) idle
      ((if_pos hcal).trans (if_neg (ne_true_of_eq_false off))) rfl
  · exact exec_of_ended_issue (d := s.scp.accept.clearB5Valid.fail .noRaw 0 0) idle
      ((if_neg (ne_false_of_eq_true hcal)).trans (if_pos hut)) rfl
  · exact exec_of_ended_issue (d := s.scp.accept.clearB5Valid.fail .noRaw 1 0) idle
      ((if_neg (ne_false_of_eq_true hcal)).trans ((if_neg (ne_false_of_eq_true hut)).trans (if_pos hup))) rfl
  · exact exec_of_issue (d := s.scp.accept.latchOss.startCompute .tp) idle
      ((if_neg (ne_false_of_eq_true hcal)).trans
        ((if_neg (ne_false_of_eq_true hut)).trans (if_neg (ne_false_of_eq_true hup))))

end Sys2Proof.Machine
end

section
/-! PROOFS. The engine's step (42_compensation.md R140, R144, R146, R148): when it acts, what each compute writes on
success and on failure, and what it depends on (R171, R172). -/

namespace Sys2Proof.Machine

/-! ### The outcomes of the three computes -/

/-- COMP_T's results and flags (R144). -/
def Scp.finishT (b5 t10 : Int) (c : Scp) : Scp :=
  Scp.complete { c with
    b5 := bits 32 b5, t10 := bits 32 t10
    status := { c.status with b5Valid := true, tValid := true, pValid := false } }

/-- COMP_P's result and flag (R146). -/
def Scp.finishP (pc : Int) (c : Scp) : Scp :=
  Scp.complete { c with pComp := bits 32 pc, status := { c.status with pValid := true } }

/-- COMPENSATE's results and flags (R148). -/
def Scp.finishTP (b5 t10 pc : Int) (c : Scp) : Scp :=
  Scp.complete { c with
    b5 := bits 32 b5, t10 := bits 32 t10, pComp := bits 32 pc
    status := { c.status with b5Valid := true, tValid := true, pValid := true } }

section
variable {c : Scp} {e : StepFail} {b5 t10 pc : Int}

theorem Scp.engineStep_of_not_computing (h : ∀ k, c.eng ≠ .computing k) : c.engineStep = c := by
  unfold Scp.engineStep
  split
  · rfl
  · rfl
  all_goals exact absurd ‹_› (h _)

theorem Scp.engineStep_t_ok (hk : c.eng = .computing .t) (h : c.runT = .ok (b5, t10)) :
    c.engineStep = c.finishT b5 t10 := by
  simp only [Scp.engineStep, hk, Scp.engineT, h]
  rfl

theorem Scp.engineStep_t_error (hk : c.eng = .computing .t) (h : c.runT = .error e) :
    c.engineStep = c.clearB5Valid.failStep e := by
  simp only [Scp.engineStep, hk, Scp.engineT, h]

theorem Scp.engineStep_p_ok (hk : c.eng = .computing .p) (h : c.runP (sext c.b5) = .ok pc) :
    c.engineStep = c.finishP pc := by
  simp only [Scp.engineStep, hk, Scp.engineP, h]
  rfl

theorem Scp.engineStep_p_error (hk : c.eng = .computing .p) (h : c.runP (sext c.b5) = .error e) :
    c.engineStep = c.failStep e := by
  simp only [Scp.engineStep, hk, Scp.engineP, h]

theorem Scp.engineStep_tp_ok (hk : c.eng = .computing .tp) (h : c.runTP = .ok (b5, t10, pc)) :
    c.engineStep = c.finishTP b5 t10 pc := by
  simp only [Scp.engineStep, hk, Scp.engineTP, h]
  rfl

theorem Scp.engineStep_tp_error (hk : c.eng = .computing .tp) (h : c.runTP = .error e) :
    c.engineStep = c.clearB5Valid.failStep e := by
  simp only [Scp.engineStep, hk, Scp.engineTP, h]

/-! Both parts of COMPENSATE, b5 passed internally (R148). -/

theorem Scp.runTP_ok (hT : c.runT = .ok (b5, t10)) (hP : c.runP b5 = .ok pc) : c.runTP = .ok (b5, t10, pc) := by
  rw [Scp.runTP, bind_of_ok hT, bind_of_ok hP]
  rfl

theorem Scp.runTP_of_failed_T (hT : c.runT = .error e) : c.runTP = .error e := by
  rw [Scp.runTP, hT]
  rfl

theorem Scp.runTP_of_failed_P (hT : c.runT = .ok (b5, t10)) (hP : c.runP b5 = .error e) : c.runTP = .error e := by
  rw [Scp.runTP, bind_of_ok hT, hP]
  rfl

end

theorem EngineEffect.idle_of_computing {c d : Scp} {k : CompKind} (e : EngineEffect c d) (hk : c.eng = .computing k) :
    d.eng = .idle := by
  cases e with
  | none h => exact absurd hk (h k)
  | _ => rfl

/-- Settles O41: outside a compute the engine's step leaves the SCP alone. -/
theorem engineStepsOnlyWhileComputing : Obligations.EngineStepsOnlyWhileComputing := by
  intro s ts hturns
  have hstep := step_engine hturns
  refine ⟨fun h => ?_, fun k hk => ⟨_, hstep, (engineEffect s.scp).idle_of_computing hk, rfl, rfl, rfl, rfl⟩⟩
  rw [hstep, Scp.engineStep_of_not_computing h]

/-- Settles O42: the sequence's outcome is the step's. -/
theorem compTEngineStep : Obligations.CompTEngineStep := by
  intro s ts hturns hk
  rw [step_engine hturns]
  refine ⟨fun b5 t10 h => ?_, fun e h => ?_⟩
  · rw [Scp.engineStep_t_ok hk h]
    rfl
  · rw [Scp.engineStep_t_error hk h]
    cases e <;> rfl

/-- Settles O43: the sequence's outcome is the step's. -/
theorem compPEngineStep : Obligations.CompPEngineStep := by
  intro s ts hturns hk
  rw [step_engine hturns]
  refine ⟨fun pc h => ?_, fun c h => ?_, fun c h => ?_⟩
  · rw [Scp.engineStep_p_ok hk h]
    rfl
  · rw [Scp.engineStep_p_error hk h]
    rfl
  · rw [Scp.engineStep_p_error hk h]
    rfl

/-- Settles O44: the outcome of the two sequences in turn is the step's. -/
theorem compensateEngineStep : Obligations.CompensateEngineStep := by
  intro s ts hturns hk
  rw [step_engine hturns]
  refine ⟨fun b5 t10 pc hT hP => ?_, fun e h => ?_⟩
  · rw [Scp.engineStep_tp_ok hk (Scp.runTP_ok hT hP)]
    rfl
  · have hfails : s.scp.runTP = .error e := by
      rcases h with hT | ⟨b5, t10, hT, hP⟩
      · exact Scp.runTP_of_failed_T hT
      · exact Scp.runTP_of_failed_P hT hP
    rw [Scp.engineStep_tp_error hk hfails]
    cases e <;> rfl

/-! ### What the outcome depends on -/

section
variable {c d : Scp}

theorem Scp.runT_congr (hut : c.ut = d.ut) (hcoef : c.coefRaw = d.coefRaw) : c.runT = d.runT := by
  rw [Scp.runT_eq, Scp.runT_eq, hut, hcoef]

theorem Scp.runP_congr (hup : c.up = d.up) (hcoef : c.coefRaw = d.coefRaw) (hloss : c.loss = d.loss) (b5 : Int) :
    c.runP b5 = d.runP b5 := by
  rw [Scp.runP_eq, Scp.runP_eq, hup, hcoef, hloss]

theorem Scp.runTP_congr (hT : c.runT = d.runT) (hP : ∀ b5, c.runP b5 = d.runP b5) : c.runTP = d.runTP := by
  simp only [Scp.runTP, hT, hP]

end

theorem StepFail.errCode_cases (e : StepFail) : e.errCode = .divZero ∨ e.errCode = .overflow := by
  cases e with
  | divZero => exact .inl rfl
  | overflow => exact .inr rfl

/-- Settles O49: the two SCPs run the same sequence on the same operands. -/
theorem engineStepIsPure : Obligations.EngineStepIsPure := by
  intro c d k hc hd hut hup hcoef hloss hb5
  have hT : c.runT = d.runT := Scp.runT_congr hut hcoef
  have hP := Scp.runP_congr hup hcoef hloss
  cases k with
  | t =>
    cases h : c.runT with
    | error e =>
      rw [Scp.engineStep_t_error hc h, Scp.engineStep_t_error hd (hT ▸ h)]
      exact .inl ⟨_, _, e.errCode_cases, ⟨rfl, rfl, rfl, rfl, rfl⟩, rfl, rfl, rfl, rfl, rfl⟩
    | ok r =>
      rw [Scp.engineStep_t_ok hc h, Scp.engineStep_t_ok hd (hT ▸ h)]
      exact .inr ⟨rfl, rfl, rfl, rfl, nofun, fun _ => rfl, fun _ => rfl, absurd rfl⟩
  | p =>
    have hd' : d.runP (sext d.b5) = c.runP (sext c.b5) := by rw [hP, hb5 rfl]
    cases h : c.runP (sext c.b5) with
    | error e =>
      rw [Scp.engineStep_p_error hc h, Scp.engineStep_p_error hd (hd'.trans h)]
      exact .inl ⟨_, _, e.errCode_cases, ⟨rfl, rfl, rfl, rfl, rfl⟩, rfl, rfl, rfl, rfl, rfl⟩
    | ok pc =>
      rw [Scp.engineStep_p_ok hc h, Scp.engineStep_p_ok hd (hd'.trans h)]
      exact .inr ⟨rfl, rfl, rfl, rfl, fun _ => ⟨rfl, rfl⟩, absurd rfl, absurd rfl, fun _ => rfl⟩
  | tp =>
    have hTP := Scp.runTP_congr hT hP
    cases h : c.runTP with
    | error e =>
      rw [Scp.engineStep_tp_error hc h, Scp.engineStep_tp_error hd (hTP ▸ h)]
      exact .inl ⟨_, _, e.errCode_cases, ⟨rfl, rfl, rfl, rfl, rfl⟩, rfl, rfl, rfl, rfl, rfl⟩
    | ok r =>
      rw [Scp.engineStep_tp_ok hc h, Scp.engineStep_tp_ok hd (hTP ▸ h)]
      exact .inr ⟨rfl, rfl, rfl, rfl, nofun, fun _ => rfl, fun _ => rfl, fun _ => rfl⟩

/-! ### MB is read by no step -/

/-- The SCP with another pattern of MB. -/
def Scp.withMb (c : Scp) (v : BitVec 16) : Scp := { c with coefRaw := c.coefRaw.set 8 v }

section
variable (c : Scp) (v : BitVec 16)

theorem Scp.withMb_runT : (c.withMb v).runT = c.runT := by
  simp [Scp.runT_eq, Scp.withMb]

theorem Scp.withMb_runP (b5 : Int) : (c.withMb v).runP b5 = c.runP b5 := by
  simp [Scp.runP_eq, Scp.withMb]

theorem Scp.withMb_engineT : (c.withMb v).engineT = c.engineT.withMb v := by
  unfold Scp.engineT
  rw [c.withMb_runT v]
  cases c.runT <;> rfl

theorem Scp.withMb_engineP : (c.withMb v).engineP = c.engineP.withMb v := by
  unfold Scp.engineP
  rw [c.withMb_runP v, show (c.withMb v).b5 = c.b5 from rfl]
  cases c.runP (sext c.b5) <;> rfl

theorem Scp.withMb_engineTP : (c.withMb v).engineTP = c.engineTP.withMb v := by
  unfold Scp.engineTP
  rw [Scp.runTP_congr (c.withMb_runT v) (c.withMb_runP v)]
  cases c.runTP <;> rfl

theorem Scp.withMb_engineStep : (c.withMb v).engineStep = c.engineStep.withMb v := by
  unfold Scp.engineStep
  rw [show (c.withMb v).eng = c.eng from rfl]
  rcases c.eng with _ | k | k
  · rfl
  · rfl
  · cases k with
    | t => exact c.withMb_engineT v
    | p => exact c.withMb_engineP v
    | tp => exact c.withMb_engineTP v

end

/-- Settles O50: the three computes run on the same operands, and no step writes the store. -/
theorem mbChangesNoResult : Obligations.MbChangesNoResult := by
  intro c v
  exact (c.withMb_engineStep v).trans (by rw [Scp.withMb, (engineEffect c).sameStore.1])

end Sys2Proof.Machine
end

section
/-! PROOFS. The range facts on the SCP's operands (42_compensation.md R142 (b), R170): what the runs of the two
sequences can end in, COMPENSATE as its two parts, and the errors an engine step can record. -/

namespace Sys2Proof.Machine

/-! ### The operands' ranges -/

/-- UT and a coefficient read as unsigned (R10). -/
theorem toNat16_range (v : BitVec 16) : 0 ≤ (v.toNat : Int) ∧ (v.toNat : Int) < 2 ^ 16 := by
  have hv := v.isLt
  omega

/-- A coefficient read as signed (R10). -/
theorem toInt16_range (v : BitVec 16) : -(2 ^ 15) ≤ v.toInt ∧ v.toInt < 2 ^ 15 :=
  ⟨v.le_toInt, v.toInt_lt⟩

/-- A value of B5's range is read back from its register (R170). -/
theorem sext_bits_of_within {x : Int} (h : Within 67239932 x) : sext (bits 32 x) = x := by
  obtain ⟨hlow, hhigh⟩ := h
  exact BitVec.toInt_ofInt_eq_self (by decide) (by omega) (by omega)

/-! ### What the two sequences can end in -/

/-- A failure that R170 leaves possible. -/
def StepFail.OfRangeFacts (e : StepFail) : Prop :=
  e = .divZero .t2 ∨ e = .divZero .p12 ∨ e = .overflow .p13 ∨ e = .overflow .p15

theorem Scp.runT_cases (c : Scp) :
    (∃ b5 t10, c.runT = .ok (b5, t10) ∧ Within 67239932 b5) ∨ ∃ e, c.runT = .error e ∧ e.OfRangeFacts := by
  obtain ⟨hut, hut'⟩ := toNat16_range c.ut
  obtain ⟨hac5, hac5'⟩ := toNat16_range c.coefRaw[4]
  obtain ⟨hac6, hac6'⟩ := toNat16_range c.coefRaw[5]
  obtain ⟨hmc, hmc'⟩ := toInt16_range c.coefRaw[9]
  obtain ⟨hmd, hmd'⟩ := toInt16_range c.coefRaw[10]
  have hseq := temperatureSequence _ _ _ _ _ hut hut' hac5 hac5' hac6 hac6' hmc hmc' hmd hmd'
  extract_lets x1 b5 at hseq
  obtain ⟨hzero, hne⟩ := hseq
  by_cases hd : x1 + c.coefRaw[10].toInt = 0
  · exact .inr ⟨_, hzero hd, .inl rfl⟩
  · obtain ⟨hok, hb5⟩ := hne hd
    exact .inl ⟨_, _, hok, hb5⟩

theorem Scp.runP_cases (c : Scp) {b5 : Int} (hb5 : Within 67239932 b5) :
    (∃ pc, c.runP b5 = .ok pc) ∨ ∃ e, c.runP b5 = .error e ∧ e.OfRangeFacts := by
  have hup : (c.up.toNat : Int) < 2 ^ 19 := by
    have := c.up.isLt
    omega
  obtain ⟨hac1, hac1'⟩ := toInt16_range c.coefRaw[0]
  obtain ⟨hac2, hac2'⟩ := toInt16_range c.coefRaw[1]
  obtain ⟨hac3, hac3'⟩ := toInt16_range c.coefRaw[2]
  obtain ⟨hac4, hac4'⟩ := toNat16_range c.coefRaw[3]
  obtain ⟨hb1, hb1'⟩ := toInt16_range c.coefRaw[6]
  obtain ⟨hb2, hb2'⟩ := toInt16_range c.coefRaw[7]
  have hseq := pressureSequence _ _ _ _ _ _ _ _ _ (Int.natCast_nonneg _) hup hb5.1 hb5.2 hac1 hac1' hac2 hac2'
    hac3 hac3' hac4 hac4' hb1 hb1' hb2 hb2' (Nat.le_of_lt_succ c.loss.isLt)
  extract_lets b6 sq x3 b3 y3 b4 b7 p z1 z2 pc at hseq
  rw [c.runP_eq, hseq]
  split_ifs
  · exact .inr ⟨_, rfl, .inr (.inl rfl)⟩
  · exact .inr ⟨_, rfl, .inr (.inr (.inl rfl))⟩
  · exact .inr ⟨_, rfl, .inr (.inr (.inr rfl))⟩
  · exact .inl ⟨_, rfl⟩

/-- The b5 of a temperature sequence that succeeds. -/
theorem Scp.b5_within_of_runT {c : Scp} {b5 t10 : Int} (h : c.runT = .ok (b5, t10)) : Within 67239932 b5 := by
  rcases c.runT_cases with ⟨b5', t10', hok, hb5⟩ | ⟨e, herr, -⟩
  · rw [h] at hok
    cases hok
    exact hb5
  · rw [h] at herr
    cases herr

theorem Scp.runTP_cases (c : Scp) :
    (∃ b5 t10 pc, c.runTP = .ok (b5, t10, pc) ∧ Within 67239932 b5) ∨
      ∃ e, c.runTP = .error e ∧ e.OfRangeFacts := by
  rcases c.runT_cases with ⟨b5, t10, hT, hb5⟩ | ⟨e, hT, he⟩
  · rcases c.runP_cases hb5 with ⟨pc, hP⟩ | ⟨e, hP, he⟩
    · exact .inl ⟨b5, t10, pc, Scp.runTP_ok hT hP, hb5⟩
    · exact .inr ⟨e, Scp.runTP_of_failed_P hT hP, he⟩
  · exact .inr ⟨e, Scp.runTP_of_failed_T hT, he⟩

/-! ### COMPENSATE and its two parts -/

/-- B5 holds the b5 of the temperature part, so the pressure part runs on the same operands; every flag that COMP_T
leaves otherwise is written again by COMP_P (R148). -/
theorem Scp.compT_then_compP {c : Scp} {b5 t10 pc : Int} (hT : c.runT = .ok (b5, t10))
    (hP : c.latchOss.runP b5 = .ok pc) :
    ((c.accept.startCompute .t).engineStep.accept.latchOss.startCompute .p).engineStep =
      (c.accept.latchOss.startCompute .tp).finishTP b5 t10 pc := by
  have hb5 := sext_bits_of_within (Scp.b5_within_of_runT hT)
  have hregister : c.latchOss.runP (sext (bits 32 b5)) = .ok pc := by rwa [hb5]
  rw [Scp.engineStep_t_ok (c := c.accept.startCompute .t) rfl hT]
  exact Scp.engineStep_p_ok rfl hregister

/-- Settles O51: both ways end in COMPENSATE's own success. -/
theorem compensateEqualsCompTThenCompP : Obligations.CompensateEqualsCompTThenCompP := by
  intro s b5 t10 pc idle hcal hut hup hT hP
  obtain ⟨-, -, -, -, issueTP⟩ := compensateIssue s idle
  obtain ⟨-, -, -, issueT⟩ := compTIssue s idle
  obtain ⟨-, -, -, -, issueP⟩ := compPIssue { s with scp := (s.scp.accept.startCompute .t).finishT b5 t10 } rfl
  have hrunT : (s.scp.accept.startCompute .t).runT = .ok (b5, t10) := hT
  have hengineT := Scp.engineStep_t_ok rfl hrunT
  have hengineTP : (s.scp.accept.latchOss.startCompute .tp).engineStep =
      (s.scp.accept.latchOss.startCompute .tp).finishTP b5 t10 pc := Scp.engineStep_tp_ok rfl (Scp.runTP_ok hT hP)
  refine ⟨{ s with scp := s.scp.accept.latchOss.startCompute .tp }, { s with scp := s.scp.accept.startCompute .t },
    { s with scp := (s.scp.accept.startCompute .t).engineStep.accept.latchOss.startCompute .p },
    issueTP hcal hut hup, issueT hcal hut, ?_, ?_, ?_, ?_, ?_⟩
  · rw [State.onScp, hengineT]
    exact issueP hcal hup rfl
  · exact congrArg (fun c => { s with scp := c }) ((Scp.compT_then_compP hT hP).trans hengineTP.symm)
  · exact congrArg Scp.b5 hengineTP
  · exact congrArg Scp.t10 hengineTP
  · exact congrArg Scp.pComp hengineTP

/-! ### The errors an engine step can record -/

/-- An engine step has completed, or it has failed as R170 leaves possible. -/
def Status.EndedByRangeFacts (st : Status) : Prop :=
  (st.err = .noError ∧ st.irqDone = true) ∨
  (st.err = .overflow ∧ (st.errInfo = 0x2D ∨ st.errInfo = 0x2F)) ∨
  (st.err = .divZero ∧ (st.errInfo = 0x12 ∨ st.errInfo = 0x2C))

theorem Scp.failStep_ended (c : Scp) {e : StepFail} (h : e.OfRangeFacts) : (c.failStep e).status.EndedByRangeFacts := by
  rcases h with rfl | rfl | rfl | rfl
  · exact .inr (.inr ⟨rfl, .inl rfl⟩)
  · exact .inr (.inr ⟨rfl, .inr rfl⟩)
  · exact .inr (.inl ⟨rfl, .inl rfl⟩)
  · exact .inr (.inl ⟨rfl, .inr rfl⟩)

/-- What a compute's engine step keeps and how it ends, started with ERR = 0 (R170). -/
theorem Scp.engineStep_range {c : Scp} {k : CompKind} (hk : c.eng = .computing k) (hb5 : c.B5InRange) :
    c.engineStep.B5InRange ∧ (c.status.err = .noError → c.engineStep.status.EndedByRangeFacts) := by
  have written {x : Int} (h : Within 67239932 x) : Within 67239932 (sext (bits 32 x)) := by
    rwa [sext_bits_of_within h]
  cases k with
  | t =>
    rcases c.runT_cases with ⟨b5, t10, h, hx⟩ | ⟨e, h, he⟩
    · rw [Scp.engineStep_t_ok hk h]
      exact ⟨written hx, fun hno => .inl ⟨hno, rfl⟩⟩
    · rw [Scp.engineStep_t_error hk h]
      exact ⟨hb5, fun _ => Scp.failStep_ended _ he⟩
  | p =>
    rcases c.runP_cases hb5 with ⟨pc, h⟩ | ⟨e, h, he⟩
    · rw [Scp.engineStep_p_ok hk h]
      exact ⟨hb5, fun hno => .inl ⟨hno, rfl⟩⟩
    · rw [Scp.engineStep_p_error hk h]
      exact ⟨hb5, fun _ => Scp.failStep_ended _ he⟩
  | tp =>
    rcases c.runTP_cases with ⟨b5, t10, pc, h, hx⟩ | ⟨e, h, he⟩
    · rw [Scp.engineStep_tp_ok hk h]
      exact ⟨written hx, fun hno => .inl ⟨hno, rfl⟩⟩
    · rw [Scp.engineStep_tp_error hk h]
      exact ⟨hb5, fun _ => Scp.failStep_ended _ he⟩

theorem Scp.B5InRange.engineStep {c : Scp} (h : c.B5InRange) : c.engineStep.B5InRange := by
  by_cases hk : ∃ k, c.eng = .computing k
  · obtain ⟨k, hk⟩ := hk
    exact (Scp.engineStep_range hk h).1
  · rwa [Scp.engineStep_of_not_computing (not_exists.1 hk)]

/-- B5 is written by reset and the engine alone (R31). -/
theorem StepEffect.b5InRange {s : State} {d : Scp} (e : StepEffect s d) (h : s.scp.B5InRange) : d.B5InRange := by
  cases e with
  | engine => exact h.engineStep
  | reset => exact resetStateIsLegal.2
  | byte b loading =>
    obtain ⟨hb5, -, -⟩ := streamByte_sameResults b s.scp loading
    rwa [Scp.B5InRange, hb5]
  | failure cause =>
    obtain ⟨hb5, -, -⟩ := streamFail_sameResults cause s.scp
    rwa [Scp.B5InRange, hb5]
  | issue _ _ _ effect =>
    obtain ⟨-, -, -, hb5, -, -⟩ := effect.frame
    rwa [Scp.B5InRange, hb5]
  | _ => exact h

/-- A step of the engine's turn is the engine's step (R140). -/
theorem scp_of_engine_turn {s t : State} (hstep : step s = .next t) (turn : (nextTurn s).1 = .engine) :
    t.scp = s.scp.engineStep := by
  rw [step, turn, agentTurn, Host.Outcome.next.injEq] at hstep
  rw [← hstep, State.onScp_scp, nextTurn_scp]

/-- Settles O54: each effect of a step keeps B5's range, and in a legal state a compute in progress has ERR = 0. -/
theorem engineErrorsAreThoseOfTheRangeFacts : Obligations.EngineErrorsAreThoseOfTheRangeFacts := by
  intro s t hb5 hstep
  refine ⟨(stepEffect hstep).b5InRange hb5, fun legal turn ⟨k, hk⟩ => ?_⟩
  rw [scp_of_engine_turn hstep turn]
  exact (Scp.engineStep_range hk hb5).2 (legal.busy_no_error (by simp [hk]))

end Sys2Proof.Machine
end

section
/-! PROOFS. NOP and the illegal command, the values of the host's reads, and the write of CTRL (43_control.md R190,
R191, R193, R194). -/

namespace Sys2Proof.Machine

/-! ### The commands -/

/-- Settles O7: NOP's issue leaves the SCP as it is, and the busy rejection is every command's. -/
theorem nopChangesNothing : Obligations.NopChangesNothing :=
  fun s => ⟨fun idle => exec_of_idle idle .nop, busyRejectsEveryCommand s .nop⟩

/-- The failure with ILLEGAL_CMD voids no result (R191, R205). -/
theorem Scp.illegal_eq (sub : BitVec 4) (op : BitVec 8) (c : Scp) :
    c.illegal sub op = { c with
      eng := .idle
      status := { c.status with err := .illegalCmd, errSub := sub, errInfo := op, irqErr := true } } := rfl

/-- Settles O8: each illegal word's issue is the ILLEGAL_CMD failure, which finds ENG idle already. -/
theorem illegalWordRecordsIllegalCmd : Obligations.IllegalWordRecordsIllegalCmd :=
  fun s idle =>
    ⟨fun op _ => exec_of_ended_issue (i := .illegalOp op) idle (Scp.illegal_eq 0 op s.scp) rfl,
      fun rsv op _ => exec_of_ended_issue (i := .illegalRsv rsv op) idle (Scp.illegal_eq 1 op s.scp) rfl⟩

/-! ### The fields of a register's word -/

/-- A concatenation is a sum: its right part stands below its left part. -/
theorem toNat_append_eq_add {m n : Nat} (v : BitVec m) (u : BitVec n) :
    (v ++ u).toNat = v.toNat * 2 ^ n + u.toNat := by
  rw [BitVec.toNat_append, ← Nat.shiftLeft_add_eq_or_of_lt u.isLt, Nat.shiftLeft_eq]

/-- A word given by its number. -/
theorem eq_ofNat_of_toNat {w : Word} {a : Nat} (h : w.toNat = a) : w = BitVec.ofNat 32 a := by
  rw [← h, BitVec.ofNat_toNat, BitVec.setWidth_eq]

/-- The fields of CTRL, each at its place (R22, R193). -/
theorem Scp.ctrlWord_eq_ofNat (c : Scp) :
    c.ctrlWord = BitVec.ofNat 32 (c.oss.toNat + 2 ^ 4 * c.ieDone.toNat + 2 ^ 5 * c.ieErr.toNat +
      2 ^ 8 * c.legacyZeroOn.toNat) := by
  apply eq_ofNat_of_toNat
  simp only [Scp.ctrlWord, toNat_append_eq_add, BitVec.toNat_ofBool, BitVec.toNat_ofNat]
  omega

/-- The fields of STATUS, each at its place (R24, R193). -/
theorem Scp.statusWord_eq_ofNat (c : Scp) :
    c.statusWord = BitVec.ofNat 32 (c.busy.toNat + 2 * c.status.calValid.toNat +
      2 ^ 2 * c.status.utValid.toNat + 2 ^ 3 * c.status.upValid.toNat + 2 ^ 4 * c.status.b5Valid.toNat +
      2 ^ 5 * c.status.tValid.toNat + 2 ^ 6 * c.status.pValid.toNat + 2 ^ 8 * c.status.wrRej.toNat +
      2 ^ 9 * c.status.irqDone.toNat + 2 ^ 10 * c.status.irqErr.toNat + 2 ^ 11 * c.status.strayFail.toNat +
      2 ^ 16 * c.status.err.code.toNat + 2 ^ 20 * c.status.errSub.toNat + 2 ^ 24 * c.status.errInfo.toNat) := by
  apply eq_ofNat_of_toNat
  simp only [Scp.statusWord, toNat_append_eq_add, BitVec.toNat_ofBool, BitVec.toNat_ofNat]
  omega

/-- BUSY as R25 says it. -/
theorem Scp.busy_eq_decide (c : Scp) : c.busy = decide (c.eng ≠ .idle) := by
  rw [Bool.eq_iff_iff, Scp.busy_eq_true, decide_eq_true_iff]

/-- An unsigned value in a register's word (R10). -/
theorem bits_zext {n : Nat} (v : BitVec n) : bits 32 (zext v) = BitVec.ofNat 32 v.toNat :=
  BitVec.ofInt_natCast 32 v.toNat

/-- A coefficient's 32-bit pattern, by its class (R32, R193). -/
theorem Scp.bits_coef (c : Scp) (i : Fin 11) :
    bits 32 (c.coef i) =
      if i = 3 ∨ i = 4 ∨ i = 5 then BitVec.ofNat 32 c.coefRaw[i].toNat
      else BitVec.ofInt 32 c.coefRaw[i].toInt := by
  rw [Scp.coef, coefValue, apply_ite (bits 32), bits_zext]
  exact if_congr (coefUnsigned_iff i) rfl rfl

/-- A coefficient's word is 0 while the store is empty (R32, R193). -/
theorem Scp.coefWord_eq (c : Scp) (i : Fin 11) :
    c.coefWord i =
      if c.status.calValid = false then 0
      else if i = 3 ∨ i = 4 ∨ i = 5 then BitVec.ofNat 32 c.coefRaw[i].toNat
      else BitVec.ofInt 32 c.coefRaw[i].toInt := by
  rw [Scp.coefWord, Scp.bits_coef]
  cases c.status.calValid <;> rfl

/-! ### Reads -/

/-- A read at an offset whose register and value are known. -/
theorem hostAccess_read_of_eq (s : State) {off : BitVec 8} {r : Reg} {v : Word} (aligned : off.toNat % 4 = 0)
    (hr : regAt off = r) (hv : s.scp.read r = v) :
    hostAccess ⟨.read, off, 4⟩ s = .next { s with readData := some v } := by
  rw [hostAccess_read s off aligned, hr, hv]

/-- A read of COEF_i (R21, R193). -/
theorem hostAccess_read_coef (s : State) (i : Fin 11) :
    hostAccess ⟨.read, BitVec.ofNat 8 (0x20 + 4 * i.val), 4⟩ s =
      .next { s with readData := some (s.scp.coefWord i) } := by
  obtain ⟨-, -, -, -, -, -, -, -, hcoef, -, -⟩ := registerMap
  have aligned : ∀ i : Fin 11, (BitVec.ofNat 8 (0x20 + 4 * i.val)).toNat % 4 = 0 := by decide
  exact hostAccess_read_of_eq s (aligned i) (hcoef i) rfl

/-- A read of ROM_k, in every state the same (R21, R33, R193). -/
theorem hostAccess_read_rom (s : State) (k : Fin 9) :
    hostAccess ⟨.read, BitVec.ofNat 8 (0x80 + 4 * k.val), 4⟩ s =
      .next { s with readData := some (bits 32 (rom k)) } := by
  obtain ⟨-, -, -, -, -, -, -, -, -, hrom, -⟩ := registerMap
  have aligned : ∀ k : Fin 9, (BitVec.ofNat 8 (0x80 + 4 * k.val)).toNat % 4 = 0 := by decide
  exact hostAccess_read_of_eq s (aligned k) (hrom k) rfl

/-- A read of a reserved offset (R21, R52). -/
theorem hostAccess_read_reserved (s : State) (off : BitVec 8) (aligned : off.toNat % 4 = 0)
    (reserved : 0x4C ≤ off.toNat ∧ off.toNat ≤ 0x7C ∨ 0xA4 ≤ off.toNat) :
    hostAccess ⟨.read, off, 4⟩ s = .next { s with readData := some 0 } := by
  obtain ⟨-, -, -, -, -, -, -, -, -, -, hreserved⟩ := registerMap
  exact hostAccess_read_of_eq s aligned (hreserved off aligned reserved) rfl

/-- Settles O30: the register at each offset, and the value that register shows. -/
theorem readValues : Obligations.ReadValues := by
  intro s
  have hrom := hostAccess_read_rom s
  refine ⟨?ctrl, ?cmd, ?status, ?ut, ?up, ?b5, ?t10, ?pComp, fun i => ?coef,
    hrom 0, hrom 1, hrom 2, hrom 3, hrom 4, hrom 5, hrom 6, hrom 7, hrom 8, hostAccess_read_reserved s⟩
  case ctrl => exact hostAccess_read_of_eq s rfl regAt_ctrl s.scp.ctrlWord_eq_ofNat
  case cmd => exact hostAccess_read_of_eq s rfl regAt_cmd rfl
  case status =>
    rw [← Scp.busy_eq_decide]
    exact hostAccess_read_of_eq s rfl regAt_status s.scp.statusWord_eq_ofNat
  case ut => exact hostAccess_read_of_eq s rfl regAt_ut (bits_zext s.scp.ut)
  case up => exact hostAccess_read_of_eq s rfl regAt_up (bits_zext s.scp.up)
  case b5 => exact hostAccess_read_of_eq s rfl regAt_b5 rfl
  case t10 => exact hostAccess_read_of_eq s rfl regAt_t10 rfl
  case pComp => exact hostAccess_read_of_eq s rfl regAt_pComp rfl
  case coef =>
    rw [← Scp.coefWord_eq]
    exact hostAccess_read_coef s i

/-! ### The write of CTRL -/

/-- CTRL reads as its defined bits: bit by bit, a field's bit of CTRL or 0 (R22, R52, R193). -/
theorem Scp.ctrlWord_eq_and_mask (c : Scp) : c.ctrlWord = c.ctrl &&& ctrlMask := by
  apply BitVec.eq_of_getLsbD_eq
  intro i hi
  simp only [Scp.ctrlWord, Scp.oss, Scp.ieDone, Scp.ieErr, Scp.legacyZeroOn, ctrlMask, BitVec.getLsbD_and,
    BitVec.getLsbD_append, BitVec.getLsbD_ofBool, BitVec.getLsbD_extractLsb']
  interval_cases i <;> simp

/-- irq with the enable bits of the word written (R40, R194). -/
theorem Scp.writeCtrl_irq (w : Word) (c : Scp) :
    (c.writeCtrl w).irq = ((c.status.irqDone && w.getLsbD 4) || (c.status.irqErr && w.getLsbD 5)) := by
  rw [Scp.irq, Scp.ieDone, Scp.ieErr, Scp.writeCtrl_ctrl, Scp.writeCtrl_status,
    getLsbD_and_mask w (i := 4) (by decide), getLsbD_and_mask w (i := 5) (by decide)]

/-- A CTRL write reads back masked (R194). -/
theorem Scp.writeCtrl_read (w : Word) (c : Scp) : (c.writeCtrl w).read .ctrl = w &&& ctrlMask := by
  rw [Scp.read, Scp.ctrlWord_eq_and_mask, Scp.writeCtrl_ctrl, BitVec.and_assoc, BitVec.and_self]

/-- Settles O32: the write is accepted or rejected by BUSY; the word kept, its value and irq are read off it. -/
theorem ctrlWriteIsMaskedAndReadsBack : Obligations.CtrlWriteIsMaskedAndReadsBack := by
  intro s w
  refine ⟨fun idle => ⟨{ s with scp := s.scp.writeCtrl w }, ?_, rfl, s.scp.writeCtrl_read w, s.scp.writeCtrl_irq w⟩,
    fun busy => ?_⟩
  · exact hostAccess_write_accepted idle (f := Scp.writeCtrl w) rfl regAt_ctrl nofun rfl
  · exact hostAccess_write_rejected busy (f := Scp.writeCtrl w) rfl regAt_ctrl nofun rfl

end Sys2Proof.Machine
end

section
/-! PROOFS. Reset (70_reset_and_hazards.md R230, R232, R233), and the end of every compute (70_reset_and_hazards.md
R245): the host's and the stream's turns use up the list and leave a compute to the engine. -/

namespace Sys2Proof.Machine

/-! ### Reset -/

/-- A reset turn resets the SCP and nothing else (R230, R232, R233). -/
theorem step_reset {s : State} {ts : List Agent} (h : s.turns = .reset :: ts) :
    step s = .next { s with turns := ts, scp := Scp.reset } := by
  obtain ⟨c, turns, host, stream, readData⟩ := s
  obtain rfl : turns = .reset :: ts := h
  rfl

/-- Settles O39: the reset turn's SCP is that of the reset state, whose values are O38's. -/
theorem resetTurnRestoresResetValues : Obligations.ResetTurnRestoresResetValues := by
  intro s ts hturns
  obtain ⟨hctrl, hstatus, hut, hup, hb5, ht10, hpComp, hcoef, heng, hn, hloss, hirq, hready⟩ := resetValues
  exact ⟨_, step_reset hturns, rfl, hctrl, hstatus, hut, hup, hb5, ht10, hpComp, hcoef, heng, hn, hloss, hirq, hready,
    fun _ => rfl, rfl, rfl, rfl, rfl⟩

/-! ### A turn of another agent while a compute is in progress -/

/-- Only the engine and reset end a compute (R54, R61, R62, R140). -/
theorem StepEffect.eng_of_computing {s : State} {d : Scp} (e : StepEffect s d) {k : CompKind}
    (hk : s.scp.eng = .computing k) (notEngine : (nextTurn s).1 ≠ .engine) (notReset : (nextTurn s).1 ≠ .reset) :
    d.eng = .computing k := by
  have busy : s.scp.eng ≠ .idle := by simp [hk]
  have noLoad : ∀ l, s.scp.eng ≠ .loading l := by simp [hk]
  cases e with
  | engine turn => exact absurd turn notEngine
  | reset turn => exact absurd turn notReset
  | byte b loading => exact absurd loading (noLoad _)
  | failure cause =>
    rcases s.scp.streamFail_cases cause with ⟨l, loading, -⟩ | ⟨-, stray⟩
    · exact absurd loading (noLoad l)
    · rwa [stray]
  | issue _ _ idle => exact absurd idle busy
  | writeCtrl _ idle => exact absurd idle busy
  | writeUt _ idle => exact absurd idle busy
  | writeUp _ idle => exact absurd idle busy
  | _ => exact hk

/-- An access acts on the SCP and the data read: the turns and the accesses to come stay as they are (R55, R56). -/
theorem hostAccess_pending {a : HostAccess} (aligned : a.aligned = true) (s : State) :
    ∃ t, hostAccess a s = .next t ∧ t.turns = s.turns ∧ t.host = s.host := by
  rcases hostAccess_cases a s with ⟨unaligned, -⟩ | ⟨-, -, e⟩ | ⟨-, w, -, e⟩
  · rw [aligned] at unaligned
    cases unaligned
  · exact ⟨_, e, rfl, rfl⟩
  · obtain ⟨f, hf⟩ := regWrite_next (regAt a.off) w s
    exact ⟨_, e.trans hf, rfl, rfl⟩

/-- With aligned accesses to come, the host's turn is never refused and leaves aligned accesses (R50, R51). -/
theorem hostTurn_pending {s : State} (aligned : s.HostAligned) :
    ∃ t, hostTurn s = .next t ∧ t.turns = s.turns ∧ t.HostAligned := by
  unfold hostTurn
  split
  · exact ⟨s, rfl, rfl, aligned⟩
  next a as hhost =>
    rw [State.HostAligned, hhost, List.forall_mem_cons] at aligned
    obtain ⟨t, hnext, hturns, hpending⟩ := hostAccess_pending aligned.1 { s with host := as }
    exact ⟨t, hnext, hturns, by rw [State.HostAligned, hpending]; exact aligned.2⟩

/-- The stream's turn acts on the SCP and the transport (R61, R62). -/
theorem streamTurn_pending (s : State) : (streamTurn s).turns = s.turns ∧ (streamTurn s).host = s.host := by
  unfold streamTurn
  split
  · exact ⟨rfl, rfl⟩
  · split <;> exact ⟨rfl, rfl⟩
  · exact ⟨rfl, rfl⟩

/-- A turn of the host or the stream is used up and leaves a compute in progress to the engine. -/
theorem step_while_computing {s : State} {a : Agent} {ts : List Agent} {k : CompKind} (hturns : s.turns = a :: ts)
    (other : a = .host ∨ a = .stream) (hk : s.scp.eng = .computing k) (aligned : s.HostAligned) :
    ∃ t, step s = .next t ∧ t.turns = ts ∧ t.HostAligned ∧ t.scp.eng = .computing k := by
  have hnext : nextTurn s = (a, { s with turns := ts }) := by rw [nextTurn, hturns]
  have answers : ∃ t, step s = .next t ∧ t.turns = ts ∧ t.HostAligned := by
    rw [step, hnext]
    rcases other with rfl | rfl
    · exact hostTurn_pending aligned
    · obtain ⟨hts, hhost⟩ := streamTurn_pending { s with turns := ts }
      exact ⟨_, rfl, hts, by rw [State.HostAligned, hhost]; exact aligned⟩
  obtain ⟨t, hstep, hts, haligned⟩ := answers
  obtain ⟨notEngine, notReset⟩ : a ≠ .engine ∧ a ≠ .reset := by rcases other with rfl | rfl <;> decide
  exact ⟨t, hstep, hts, haligned, (stepEffect hstep).eng_of_computing hk (by rwa [hnext]) (by rwa [hnext])⟩

/-! ### The run -/

/-- A run whose first step answers goes on from the state it answers. -/
theorem core_run_succ {s t : State} (hstep : step s = .next t) (j : Nat) :
    Sys2Proof.core.run (j + 1) s = Sys2Proof.core.run j t := by
  have hcore : Sys2Proof.core.step s = .next t := hstep
  simp only [Host.Core.run, hcore]

/-- The engine's turn, listed or taken because nothing is listed, ends the compute in one step (R140, R245). -/
theorem run_one_of_engine_turn {s : State} {ts : List Agent} {k : CompKind}
    (hturns : s.turns = .engine :: ts ∨ (s.turns = [] ∧ ts = [])) (hk : s.scp.eng = .computing k) :
    ∃ t, Sys2Proof.core.run 1 s = .next t ∧ t.scp.eng = .idle := by
  obtain ⟨t, hstep, idle, -⟩ := (engineStepsOnlyWhileComputing s ts hturns).2 k hk
  exact ⟨t, core_run_succ hstep 0, idle⟩

/-- Settles O59, by induction on the turns listed: the host's and the stream's turns go by, and the first turn of
the engine, at the latest the one after the list, ends the compute. -/
theorem everyComputeEnds : Obligations.EveryComputeEnds := by
  intro s k hk aligned noReset
  generalize hturns : s.turns = turns at noReset ⊢
  induction turns generalizing s with
  | nil =>
    obtain ⟨t, hrun, idle⟩ := run_one_of_engine_turn (.inr ⟨hturns, rfl⟩) hk
    exact ⟨1, t, Nat.le_add_left _ _, hrun, idle⟩
  | cons a ts ih =>
    have later (other : a = .host ∨ a = .stream) :
        ∃ j t, j ≤ (a :: ts).length + 1 ∧ Sys2Proof.core.run j s = .next t ∧ t.scp.eng = .idle := by
      obtain ⟨u, hstep, hts, haligned, heng⟩ := step_while_computing hturns other hk aligned
      obtain ⟨j, t, hj, hrun, idle⟩ := ih u heng haligned hts fun h => noReset (.tail a h)
      exact ⟨j + 1, t, Nat.succ_le_succ hj, (core_run_succ hstep j).trans hrun, idle⟩
    cases a with
    | host => exact later (.inl rfl)
    | stream => exact later (.inr rfl)
    | engine =>
      obtain ⟨t, hrun, idle⟩ := run_one_of_engine_turn (.inl hturns) hk
      exact ⟨1, t, Nat.le_add_left _ _, hrun, idle⟩
    | reset => exact absurd (.head ts) noReset

end Sys2Proof.Machine
end
